-- ==== Sys2Proof/Word.lean ====
section
/-! DEFINITION. The data of the core: bytes, 16-byte blocks and the 11-key schedule
(00_scope.md R9, R11; 10_state.md R33, R36). -/

namespace Sys2Proof

/-- A byte: 8 bits, bit 7 the most significant (00_scope.md R9). -/
abbrev Byte := BitVec 8

/-- A block, key or round key: a flat sequence of 16 bytes (00_scope.md R11, 10_state.md R33). -/
abbrev Block := Vector Byte 16

/-- The 11 round keys, index 0 the original key (00_scope.md R6, 10_state.md R36). -/
abbrev Schedule := Vector Block 11

end Sys2Proof
end

