-- ==== Sys2Proof/Syntax.lean ====
section
/-! DEFINITION. The instructions: the 18 commands of 30_encoding.md R102 (format C) and the two host
transactions of R106 (format T), one constructor per row of opcode_table.json. -/

namespace Sys2Proof

/-- One constructor per row of the opcode table. Commands carry no operand: theirs are in registers
(30_encoding.md R103). -/
inductive Instr
  | nop
  | expand
  | encrypt
  | decrypt
  | subBytes
  | invSubBytes
  | shiftRows
  | invShiftRows
  | mixColumns
  | invMixColumns
  | addRoundKey
  | gfMul
  | sbox
  | invSbox
  | rcon
  | clearAll
  | clearKey
  | clearBlk
  /-- `rd a`: one host read transaction. -/
  | rd (a : Byte)
  /-- `wr a, v`: one host write transaction. -/
  | wr (a v : Byte)
deriving DecidableEq, Repr

end Sys2Proof
end

