-- ==== Sys2Proof/Decode.lean ====
section
/-! DEFINITION. Decoding and encoding: the command byte of format C and the 17-bit transaction word of
format T (30_encoding.md R100, R102, R104, R105, R106, R111). -/

namespace Sys2Proof

/-- An encoded instruction, in the format it is sent in (30_encoding.md R100). -/
inductive Encoded
  /-- Format C: the byte written to CMD. -/
  | command (op : Byte)
  /-- Format T: bit 16 `we`, bits 15:8 `addr`, bits 7:0 `data`. -/
  | transaction (w : BitVec 17)
deriving DecidableEq, Repr

/-- Why an encoding is no instruction. -/
inductive DecodeError
  /-- One of the 238 reserved opcodes (30_encoding.md R104). -/
  | reservedOpcode (op : Byte)
deriving DecidableEq, Repr

/-- The opcode map (30_encoding.md R102). -/
def opcodeMap : List (Byte × Instr) :=
  [(0x00, .nop), (0x01, .expand), (0x02, .encrypt), (0x03, .decrypt),
   (0x10, .subBytes), (0x11, .invSubBytes), (0x12, .shiftRows), (0x13, .invShiftRows),
   (0x14, .mixColumns), (0x15, .invMixColumns), (0x16, .addRoundKey),
   (0x20, .gfMul), (0x21, .sbox), (0x22, .invSbox), (0x23, .rcon),
   (0xF0, .clearAll), (0xF1, .clearKey), (0xF2, .clearBlk)]

/-- Format C: all 8 bits are matched; every opcode outside the map is reserved
(30_encoding.md R100, R104). -/
def decodeCommand (op : Byte) : Except DecodeError Instr :=
  match opcodeMap.lookup op with
  | some i => .ok i
  | none => .error (.reservedOpcode op)

/-- Format T: bit 16 selects the transaction. The data bits of a read are ignored
(30_encoding.md R100, R106, R111; log 7). -/
def decodeTransaction (w : BitVec 17) : Instr :=
  if w[16] then .wr (w.extractLsb' 8 8) (w.extractLsb' 0 8) else .rd (w.extractLsb' 8 8)

/-- The decoder. -/
def decode : Encoded → Except DecodeError Instr
  | .command op => decodeCommand op
  | .transaction w => .ok (decodeTransaction w)

/-- The format-T word `{we, addr, data}` (30_encoding.md R100). -/
def transactionWord (we : Bool) (addr data : Byte) : BitVec 17 :=
  BitVec.ofBool we ++ addr ++ data

/-- The encoder. -/
def encode : Instr → Encoded
  | .nop => .command 0x00
  | .expand => .command 0x01
  | .encrypt => .command 0x02
  | .decrypt => .command 0x03
  | .subBytes => .command 0x10
  | .invSubBytes => .command 0x11
  | .shiftRows => .command 0x12
  | .invShiftRows => .command 0x13
  | .mixColumns => .command 0x14
  | .invMixColumns => .command 0x15
  | .addRoundKey => .command 0x16
  | .gfMul => .command 0x20
  | .sbox => .command 0x21
  | .invSbox => .command 0x22
  | .rcon => .command 0x23
  | .clearAll => .command 0xF0
  | .clearKey => .command 0xF1
  | .clearBlk => .command 0xF2
  | .rd a => .transaction (transactionWord false a 0x00)
  | .wr a v => .transaction (transactionWord true a v)

/-- The format-T word that carries an instruction: a command is sent as `{we=1, addr=0x00, data=op}`
(30_encoding.md R100). -/
def hostWord (i : Instr) : BitVec 17 :=
  match encode i with
  | .command op => transactionWord true 0x00 op
  | .transaction w => w

/-- The instruction the decoder reads from a word of `nbits` bits numbered as the opcode table numbers
them: up to 8 bits a command, above that a transaction. A value that does not fit the format's width is
refused (log 18). -/
def decodeTableWord (nbits w : Nat) : Option Instr :=
  if nbits ≤ 8 then
    if w < 2 ^ 8 then (decode (.command (BitVec.ofNat 8 w))).toOption else none
  else
    if w < 2 ^ 17 then (decode (.transaction (BitVec.ofNat 17 w))).toOption else none

end Sys2Proof
end

