-- ==== Sys2Proof/Machine/AddressMap.lean ====
section
/-! DEFINITION. The address map of the register window (20_memory.md R71; 30_encoding.md R108) and the
window's place on the platform bus (20_memory.md R79). -/

namespace Sys2Proof.Machine

/-- What an address of the window names: one row of 20_memory.md R71. -/
inductive Location
  | cmd
  | status
  | errcode
  | ctrl
  | keyCnt
  | blkCnt
  | arg0
  | arg1
  | result
  | keyIn
  | blkIn
  | state (i : Fin 16)
  | key (i : Fin 16)
  | rk (r : Fin 11) (i : Fin 16)
  | reserved
deriving DecidableEq, Repr

/-- The row of 20_memory.md R71 that an address belongs to. -/
def locate (a : Byte) : Location :=
  let n := a.toNat
  if hs : 0x10 ≤ n ∧ n ≤ 0x1F then .state ⟨n - 0x10, by omega⟩
  else if hk : 0x20 ≤ n ∧ n ≤ 0x2F then .key ⟨n - 0x20, by omega⟩
  else if hr : 0x30 ≤ n ∧ n ≤ 0xDF then
    .rk ⟨(n - 0x30) / 16, by omega⟩ ⟨(n - 0x30) % 16, by omega⟩
  else match n with
    | 0x00 => .cmd
    | 0x01 => .status
    | 0x02 => .errcode
    | 0x03 => .ctrl
    | 0x04 => .keyCnt
    | 0x05 => .blkCnt
    | 0x06 => .arg0
    | 0x07 => .arg1
    | 0x08 => .result
    | 0x09 => .keyIn
    | 0x0A => .blkIn
    | _ => .reserved

/-- The address a register symbol stands for (30_encoding.md R108); a reserved address has no symbol. -/
def addressOf : Location → Option Byte
  | .cmd => some 0x00
  | .status => some 0x01
  | .errcode => some 0x02
  | .ctrl => some 0x03
  | .keyCnt => some 0x04
  | .blkCnt => some 0x05
  | .arg0 => some 0x06
  | .arg1 => some 0x07
  | .result => some 0x08
  | .keyIn => some 0x09
  | .blkIn => some 0x0A
  | .state i => some (BitVec.ofNat 8 (0x10 + i.val))
  | .key i => some (BitVec.ofNat 8 (0x20 + i.val))
  | .rk r i => some (BitVec.ofNat 8 (0x30 + 16 * r.val + i.val))
  | .reserved => none

/-- The register address a platform address reaches, for a window at `base`; addresses outside the
256-byte window do not reach the core (20_memory.md R79; log 12). -/
def windowOffset (base addr : Nat) : Option Byte :=
  if base ≤ addr ∧ addr < base + 256 then some (BitVec.ofNat 8 (addr - base)) else none

end Sys2Proof.Machine
end

