-- ==== Sys2Proof/Config.lean ====
section
/-! DEFINITION. What an implementation fixes and the spec leaves open (00_scope.md R7), and the free
values (93_implementation_defined.md U1, U2). The opaque constants have no body: nothing can be proved
of a value of theirs. -/

namespace Sys2Proof

/-- `MUL_IMPL`: how MixColumns multiplies (00_scope.md R7, 40_galois.md R137). -/
inductive Config.MulImpl
  | bitSerial
  | table
deriving DecidableEq, Repr

/-- `RCON_IMPL`: how a round constant is made (00_scope.md R7, 40_galois.md R134). -/
inductive Config.RconImpl
  | doubling
  | table
deriving DecidableEq, Repr

/-- The free byte of draw number `n`: what an unspecified read returns, "drawn again at every read"
(45_host_port.md R260, 70_reset_and_hazards.md R310). Log 4. -/
opaque Config.freeByte (n : Nat) : Byte

/-- One less than `LAT(op)`. Log 10. -/
opaque Config.extraCycles (op : Byte) : Nat

/-- `LAT(op)`: cycles from acceptance to completion, a natural number ≥ 1 for each opcode, otherwise open
(00_scope.md R7, 70_reset_and_hazards.md R318). Log 10. -/
def Config.lat (op : Byte) : Nat := Config.extraCycles op + 1

end Sys2Proof
end

