-- ==== Sys2Proof/Machine/Bytes.lean ====
section
/-! DEFINITION. Building blocks byte by byte and column by column (00_scope.md R11, 10_state.md R33). -/

namespace Sys2Proof.Machine

/-- The block whose byte `i` is `f i`. -/
def tabulate (f : Fin 16 → Byte) : Block :=
  #v[f 0, f 1, f 2, f 3, f 4, f 5, f 6, f 7, f 8, f 9, f 10, f 11, f 12, f 13, f 14, f 15]

/-- The index of the byte at row `r`, column `c`: `4·c + r` (10_state.md R33). -/
def cell (r c : Fin 4) : Fin 16 := ⟨4 * c.val + r.val, by omega⟩

/-- The row of byte `i`: `i % 4` (10_state.md R33). -/
def rowOf (i : Fin 16) : Fin 4 := ⟨i.val % 4, by omega⟩

/-- The column of byte `i`: `i / 4` (10_state.md R33). -/
def colOf (i : Fin 16) : Fin 4 := ⟨i.val / 4, by omega⟩

/-- A 4-byte word of a key (00_scope.md R11). -/
structure KeyWord where
  b0 : Byte
  b1 : Byte
  b2 : Byte
  b3 : Byte
deriving DecidableEq, Repr

/-- `word(s, w)`: bytes `4w..4w+3`, byte `4w` at offset 0 (00_scope.md R11, 42_key_schedule.md R170). -/
def wordAt (s : Block) (w : Fin 4) : KeyWord :=
  ⟨s.get (cell 0 w), s.get (cell 1 w), s.get (cell 2 w), s.get (cell 3 w)⟩

/-- The block with the given four words, left to right. -/
def ofWords (w0 w1 w2 w3 : KeyWord) : Block :=
  #v[w0.b0, w0.b1, w0.b2, w0.b3, w1.b0, w1.b1, w1.b2, w1.b3,
     w2.b0, w2.b1, w2.b2, w2.b3, w3.b0, w3.b1, w3.b2, w3.b3]

/-- XOR of two words is bytewise (42_key_schedule.md R170). -/
def KeyWord.xor (x y : KeyWord) : KeyWord := ⟨x.b0 ^^^ y.b0, x.b1 ^^^ y.b1, x.b2 ^^^ y.b2, x.b3 ^^^ y.b3⟩

/-- The block of 16 bytes 0x00. -/
def zeroBlock : Block := Vector.replicate 16 0x00

/-- The schedule of 11 zero round keys. -/
def zeroSchedule : Schedule := Vector.replicate 11 zeroBlock

/-- `b << n` of one status bit: the byte with bit `n` equal to `b` and the others 0. -/
def bitAt (b : Bool) (n : Nat) : Byte := (if b then 1#8 else 0#8) <<< n

end Sys2Proof.Machine
end

