-- ==== Sys2Proof/Machine/State.lean ====
section
/-! DEFINITION. The state of the machine: the spec's own state (10_state.md R30) and, apart from it, the
host's side of the port as plain data (program, turns, rdata, draws). Reset values: 10_state.md R51. -/

namespace Sys2Proof.Machine

/-- PHASE of the sequencer (10_state.md R47). STATUS.BUSY is `busy` read as a bit. -/
inductive Phase
  | idle
  | busy
deriving DecidableEq, Repr

/-- The completion codes of 60_exceptions.md R281. -/
inductive ErrCode
  | ok
  | invalidKeyLength
  | invalidBlockLength
  | illegalCommand
  | illegalArgument
deriving DecidableEq, Repr

/-- One item of a host program (30_encoding.md R106, R107): a transaction word, or `poll`, which is
`rd STATUS` repeated until BUSY reads 0. -/
inductive HostItem
  | word (w : BitVec 17)
  | poll
deriving DecidableEq, Repr

/-- Who moves next (00_scope.md R8; log 1). -/
inductive Turn
  /-- The host issues the next transaction of its program. -/
  | host
  /-- The core completes the command in progress (45_host_port.md R272). -/
  | core
  /-- The sequencer performs one hidden micro-step (44_cipher_engine.md R233; log 6). -/
  | micro
  /-- An edge with `rst` = 1 (70_reset_and_hazards.md R310); `drives` says whether the host has a
  transaction on the bus in that cycle. -/
  | rst (drives : Bool)
deriving DecidableEq, Repr

/-- The state. The first part is 10_state.md R30's; `rdata`, `draws`, `program` and `turns` are the
model's own. -/
structure State where
  /-- STATE[0..15] (R34). -/
  blk : Block
  /-- KEY[0..15] (R35). -/
  key : Block
  /-- RK[0..10] (R36). -/
  rk : Schedule
  /-- KEY_CNT (R37). -/
  keyCnt : Byte
  /-- BLK_CNT (R38). -/
  blkCnt : Byte
  /-- ARG0 (R39). -/
  arg0 : Byte
  /-- ARG1 (R40). -/
  arg1 : Byte
  /-- RESULT (R41). -/
  result : Byte
  /-- STATUS.DONE (R42). -/
  done : Bool
  /-- STATUS.SCHED_VALID (R42). -/
  schedValid : Bool
  /-- STATUS.COLL (R42). -/
  coll : Bool
  /-- ERRCODE (R43). -/
  errcode : Byte
  /-- CTRL.IE (R44); CTRL[7:1] read as 0 and ignore writes. -/
  ie : Bool
  /-- PHASE (R47). -/
  phase : Phase
  /-- PEND_OP (R47). -/
  pendOp : Byte
  /-- UIDX (R47), 0..40. -/
  uidx : Nat
  /-- The byte the latest read transaction returned (20_memory.md R86; log 5). -/
  rdata : Option Byte
  /-- How many free bytes have been drawn (log 4). -/
  draws : Nat
  /-- The host transactions still to come (30_encoding.md R110; log 3). -/
  program : List HostItem
  /-- Which agent moves next (log 1); used up, the core completes before the host moves (log 2). -/
  turns : List Turn
deriving DecidableEq, Repr

/-- Why the machine stops with a fault: never. Every encoding, access and argument of this hardware has a
defined outcome (60_exceptions.md R280, 70_reset_and_hazards.md R321), so no meaning raises one (log 16). -/
inductive Fault
deriving DecidableEq, Repr

/-- Why a step is refused. -/
inductive Refusal
  /-- Raised by `exec` alone, in the arm of an instruction that has no meaning yet. Safe: nothing can be
  proved of a run past it. No arm raises it now. -/
  | notModelled (mnemonic : String)
deriving DecidableEq, Repr

/-- The machine right after reset (10_state.md R51). The model's own fields are empty
(logs 3, 4, 5). -/
def State.reset : State where
  blk := zeroBlock
  key := zeroBlock
  rk := zeroSchedule
  keyCnt := 0x00
  blkCnt := 0x00
  arg0 := 0x00
  arg1 := 0x00
  result := 0x00
  done := false
  schedValid := false
  coll := false
  errcode := 0x00
  ie := false
  phase := .idle
  pendOp := 0x00
  uidx := 0
  rdata := none
  draws := 0
  program := []
  turns := []

end Sys2Proof.Machine
end

