-- ==== Sys2Proof/Machine/Flags.lean ====
section
/-! DEFINITION. The status flags and the interrupt output (10_state.md R42, R44, R48, R49). No command sets
a flag from a value it computes. -/

namespace Sys2Proof.Machine

/-- The byte of an error code (60_exceptions.md R281). -/
def ErrCode.byte : ErrCode → Byte
  | .ok => 0x00
  | .invalidKeyLength => 0x01
  | .invalidBlockLength => 0x02
  | .illegalCommand => 0x03
  | .illegalArgument => 0x04

/-- STATUS.BUSY: PHASE = BUSY read as a bit (10_state.md R47). -/
def busyBit (s : State) : Bool := s.phase == .busy

/-- STATUS.ERR: 1 exactly when ERRCODE ≠ 0x00 (10_state.md R42). -/
def errBit (s : State) : Bool := s.errcode != 0x00

/-- `COLL<<4 | SCHED_VALID<<3 | ERR<<2 | DONE<<1 | BUSY` (45_host_port.md R260). -/
def packStatus (coll schedValid err done busy : Bool) : Byte :=
  bitAt coll 4 ||| bitAt schedValid 3 ||| bitAt err 2 ||| bitAt done 1 ||| bitAt busy 0

/-- STATUS as a byte (10_state.md R42, 45_host_port.md R260). -/
def statusByte (s : State) : Byte :=
  packStatus s.coll s.schedValid (errBit s) s.done (busyBit s)

/-- CTRL as a byte: IE in bit 0, bits 7:1 read as 0 (10_state.md R44). -/
def ctrlByte (s : State) : Byte := bitAt s.ie 0

/-- The interrupt output: `irq = STATUS.DONE & CTRL.IE` (10_state.md R48, 60_exceptions.md R289). -/
def irq (s : State) : Bool := s.done && s.ie

end Sys2Proof.Machine
end

