-- ==== Sys2Proof/Machine/Ops.lean ====
section
/-! DEFINITION. The shared operations: completion and error (45_host_port.md R272, 60_exceptions.md R280),
acceptance, the data ports and the register writes (45_host_port.md R262 to R267), and reset
(70_reset_and_hazards.md R310). -/

namespace Sys2Proof.Machine

/-- `complete(code)` (45_host_port.md R272). PEND_OP keeps its value (log 8). -/
def complete (code : ErrCode) (s : State) : State :=
  { s with errcode := code.byte, done := true, phase := .idle, uidx := 0 }

/-- `raise E()`, how this hardware takes an exception: `complete(E)` with no other write. Nothing is saved, no
vector is taken, no mode changes, and there is no return (60_exceptions.md R280, R287, R291, R292;
00_scope.md R14). -/
def raise (e : ErrCode) (s : State) : State := complete e s

/-- A command rule: the first failed check is raised and nothing of the effect is performed; otherwise the
effect and the completion happen in one step (45_host_port.md R272, 60_exceptions.md R286, R287). -/
def runCommand (check : Option ErrCode) (effect : State → State) (s : State) :
    Host.Outcome State Fault Refusal :=
  match check with
  | some e => .next (raise e s)
  | none => .next (complete .ok (effect s))

/-- `accept(v)` (45_host_port.md R267). -/
def accept (v : Byte) (s : State) : State :=
  { s with phase := .busy, pendOp := v, uidx := 0, done := false, errcode := 0x00 }

/-- A write that arrives while BUSY = 1: dropped, COLL set (45_host_port.md R261, 60_exceptions.md R294). -/
def dropWrite (s : State) : State := { s with coll := true }

/-- The saturating 8-bit increment of the two counts (40_galois.md R138; CNT_MAX = 255, 00_scope.md R7). -/
def bumpCount (cnt : Byte) : Byte := if cnt.toNat < 255 then cnt + 1 else 255

/-- Store byte number `cnt` of a buffer; the 17th and later bytes are not stored (45_host_port.md R262). -/
def storeAt (b : Block) (cnt v : Byte) : Block :=
  if h : cnt.toNat < 16 then b.set cnt.toNat v h else b

/-- `keyIn(v)` (45_host_port.md R262). -/
def keyIn (v : Byte) (s : State) : State :=
  { s with key := storeAt s.key s.keyCnt v, keyCnt := bumpCount s.keyCnt }

/-- `blkIn(v)` (45_host_port.md R263). -/
def blkIn (v : Byte) (s : State) : State :=
  { s with blk := storeAt s.blk s.blkCnt v, blkCnt := bumpCount s.blkCnt }

/-- `statusWrite(v)`: write 1 to clear DONE and COLL (45_host_port.md R264). -/
def statusWrite (v : Byte) (s : State) : State :=
  { s with done := s.done && !v[1], coll := s.coll && !v[4] }

/-- `ctrlWrite(v)` (45_host_port.md R265). -/
def ctrlWrite (v : Byte) (s : State) : State := { s with ie := v[0] }

/-- `argWrite(0x06, v)` (45_host_port.md R266). -/
def arg0Write (v : Byte) (s : State) : State := { s with arg0 := v }

/-- `argWrite(0x07, v)` (45_host_port.md R266). -/
def arg1Write (v : Byte) (s : State) : State := { s with arg1 := v }

/-- An edge with `rst` = 1: every piece of the spec's state takes its reset value; the host's side of the
port is not the core's and keeps its own (70_reset_and_hazards.md R310, R312; log 15). -/
def resetCore (s : State) : State :=
  { State.reset with rdata := s.rdata, draws := s.draws, program := s.program, turns := s.turns }

/-- A read transaction puts its byte on `rdata` (20_memory.md R86). -/
def returnByte (v : Byte) (s : State) : State := { s with rdata := some v }

/-- A free byte has been used: the next draw is another one (log 4). -/
def countDraw (s : State) : State := { s with draws := s.draws + 1 }

end Sys2Proof.Machine
end

