-- ==== Sys2Proof/Machine/Operands.lean ====
section
/-! DEFINITION. The operands of the commands and the checks on them (30_encoding.md R103; 60_exceptions.md
R282 to R286). Operands are read at completion. -/

namespace Sys2Proof.Machine

/-- A check: nothing if the condition holds, else the code to raise. -/
def require (holds : Bool) (e : ErrCode) : Option ErrCode := if holds then none else some e

/-- ARG0 as an unsigned integer: the round number of RCON, the index of ADD_ROUND_KEY
(30_encoding.md R103). -/
def argIndex (s : State) : Nat := s.arg0.toNat

/-- The round key that ARG0 selects; `none` above index 10 (30_encoding.md R103). -/
def selectedRoundKey (s : State) : Option Block := s.rk[argIndex s]?

/-- EXPAND needs exactly 16 key bytes (60_exceptions.md R282). -/
def checkKey (s : State) : Option ErrCode := require (s.keyCnt == 16) .invalidKeyLength

/-- A command that reads STATE needs exactly 16 block bytes (60_exceptions.md R283). -/
def checkBlock (s : State) : Option ErrCode := require (s.blkCnt == 16) .invalidBlockLength

/-- The commands that read RK need a valid schedule (60_exceptions.md R282). -/
def checkSchedule (s : State) : Option ErrCode := require s.schedValid .invalidKeyLength

/-- RCON requires 1 ≤ ARG0 ≤ 10 (60_exceptions.md R285). -/
def checkRound (s : State) : Option ErrCode :=
  require (1 ≤ argIndex s && argIndex s ≤ 10) .illegalArgument

/-- ADD_ROUND_KEY requires ARG0 ≤ 10 (60_exceptions.md R285). -/
def checkIndex (s : State) : Option ErrCode := require (argIndex s ≤ 10) .illegalArgument

/-- The first check that fails, the block before the schedule (60_exceptions.md R286). -/
def checkCipher (s : State) : Option ErrCode := (checkBlock s).or (checkSchedule s)

/-- The block, then the schedule, then the argument (60_exceptions.md R286). -/
def checkAddRoundKey (s : State) : Option ErrCode :=
  (checkBlock s).or ((checkSchedule s).or (checkIndex s))

/-- The checks of each command, in order (the table of 60_exceptions.md R286). -/
def commandCheck (i : Instr) (s : State) : Option ErrCode :=
  match i with
  | .nop | .gfMul | .sbox | .invSbox | .clearAll | .clearKey | .clearBlk => none
  | .expand => checkKey s
  | .encrypt | .decrypt => checkCipher s
  | .subBytes | .invSubBytes | .shiftRows | .invShiftRows | .mixColumns | .invMixColumns => checkBlock s
  | .addRoundKey => checkAddRoundKey s
  | .rcon => checkRound s
  | .rd _ | .wr _ _ => none

end Sys2Proof.Machine
end

