-- ==== Sys2Proof/Machine/Galois.lean ====
section
/-! DEFINITION. The GF(2^8) arithmetic unit and its commands GF_MUL and RCON (40_galois.md). -/

namespace Sys2Proof.Machine

/-- One shift step of the multiplier: shift left, and XOR 0x1B if the dropped bit was set
(40_galois.md R131). -/
def shiftReduce (a : Byte) : Byte := (a <<< 1) ^^^ (if a[7] then 0x1B else 0x00)

/-- The multiplier loop over the bits of `b`, least significant first: `acc` the accumulator, `a` the
shifted multiplicand (40_galois.md R131). -/
def gmulLoop : List Bool → Byte → Byte → Byte
  | [], acc, _ => acc
  | b :: bs, acc, a => gmulLoop bs (if b then acc ^^^ a else acc) (shiftReduce a)

/-- The bits of a byte, bit 0 first. -/
def bitsOf (b : Byte) : List Bool := [b[0], b[1], b[2], b[3], b[4], b[5], b[6], b[7]]

/-- The field product (40_galois.md R131). -/
def gmul (a b : Byte) : Byte := gmulLoop (bitsOf b) 0x00 a

/-- Multiplication by 2 (40_galois.md R132). -/
def xtime (a : Byte) : Byte := gmul a 0x02

/-- `n` doublings of `c`. -/
def doublings : Nat → Byte → Byte
  | 0, c => c
  | n + 1, c => doublings n (xtime c)

/-- The round constant of round `r` ≥ 1: `r - 1` doublings of 0x01 (40_galois.md R134). RCON and EXPAND use it
for rounds 1..10 alone (log 21). -/
def rcon (r : Nat) : Byte := doublings (r - 1) 0x01

/-- The 10-entry table of round constants (40_galois.md R134). -/
def rconTable : List Byte := [0x01, 0x02, 0x04, 0x08, 0x10, 0x20, 0x40, 0x80, 0x1B, 0x36]

/-- The round constant of round `r` in 1..10 as either implementation makes it; the table has no entry for
another round (40_galois.md R134). -/
def rconBy (impl : Config.RconImpl) (r : Nat) : Option Byte :=
  match impl with
  | .doubling => if 1 ≤ r ∧ r ≤ 10 then some (rcon r) else none
  | .table => if 1 ≤ r then rconTable[r - 1]? else none

/-- A table-driven multiplier by a MixColumns coefficient: a fixed network of `shiftReduce` stages for each of
the coefficients 1, 2, 3, 9, 11, 13, 14; `none` for another coefficient (40_galois.md R137). -/
def networkMul (a : Byte) (coefficient : Nat) : Option Byte :=
  let a2 := shiftReduce a
  let a4 := shiftReduce a2
  let a8 := shiftReduce a4
  match coefficient with
  | 1 => some a
  | 2 => some a2
  | 3 => some (a2 ^^^ a)
  | 9 => some (a8 ^^^ a)
  | 11 => some (a8 ^^^ a2 ^^^ a)
  | 13 => some (a8 ^^^ a4 ^^^ a)
  | 14 => some (a8 ^^^ a4 ^^^ a2)
  | _ => none

/-- The product by a coefficient as either implementation makes it (40_galois.md R137). -/
def mulBy (impl : Config.MulImpl) (a b : Byte) : Byte :=
  match impl with
  | .bitSerial => gmul a b
  | .table => (networkMul a b.toNat).getD (gmul a b)

/-- GF_MUL (40_galois.md R135). -/
def execGfMul (s : State) : Host.Outcome State Fault Refusal :=
  runCommand none (fun s => { s with result := gmul s.arg0 s.arg1 }) s

/-- RCON (40_galois.md R136). -/
def execRcon (s : State) : Host.Outcome State Fault Refusal :=
  runCommand (checkRound s) (fun s => { s with result := rcon (argIndex s) }) s

end Sys2Proof.Machine
end

