-- ==== Sys2Proof/Machine/BlockTransform.lean ====
section
/-! DEFINITION. The four block transforms, their inverses, and the seven commands that apply them to STATE
(43_block_transform.md). -/

namespace Sys2Proof.Machine

/-- Substitute every byte (43_block_transform.md R190). -/
def subBytes (s : Block) : Block := tabulate fun i => sbox (s.get i)

/-- Substitute every byte by the inverse table (43_block_transform.md R191). -/
def invSubBytes (s : Block) : Block := tabulate fun i => invSbox (s.get i)

/-- Shift row `i` left by `i`: destination column `j` reads from column `(j+i) mod 4`
(43_block_transform.md R192; 90_conflicts.md C1). -/
def shiftRows (s : Block) : Block :=
  tabulate fun k => s.get (cell (rowOf k) (colOf k + rowOf k))

/-- Shift row `i` right by `i`: destination column `j` reads from column `(j-i) mod 4`
(43_block_transform.md R193; 90_conflicts.md C1). -/
def invShiftRows (s : Block) : Block :=
  tabulate fun k => s.get (cell (rowOf k) (colOf k - rowOf k))

/-- The MixColumns coefficients of row 0 (43_block_transform.md R194). -/
def mixCoefficients : Vector Byte 4 := #v[2, 3, 1, 1]

/-- The InvMixColumns coefficients of row 0 (43_block_transform.md R195). -/
def invMixCoefficients : Vector Byte 4 := #v[14, 11, 13, 9]

/-- The matrix entry of row `r`, column `j`: row `r` is row 0 rotated right by `r` (43_block_transform.md R194,
R195). -/
def coefficient (row0 : Vector Byte 4) (r j : Fin 4) : Byte := row0.get (j - r)

/-- One term of an output byte: byte `j` of column `c` times the entry of row `r`; coefficient 1 uses the byte
unmultiplied (43_block_transform.md R194). -/
def mixTerm (mul : Byte → Byte → Byte) (row0 : Vector Byte 4) (s : Block) (r c j : Fin 4) : Byte :=
  let a := s.get (cell j c)
  let k := coefficient row0 r j
  if k = 1 then a else mul a k

/-- Multiply each column by a matrix: output byte `r` of column `c` is the XOR of its four terms
(43_block_transform.md R194). -/
def mixWith (mul : Byte → Byte → Byte) (row0 : Vector Byte 4) (s : Block) : Block :=
  tabulate fun i =>
    let term := mixTerm mul row0 s (rowOf i) (colOf i)
    term 0 ^^^ term 1 ^^^ term 2 ^^^ term 3

/-- MixColumns (43_block_transform.md R194). -/
def mixColumns (s : Block) : Block := mixWith gmul mixCoefficients s

/-- InvMixColumns (43_block_transform.md R195). -/
def invMixColumns (s : Block) : Block := mixWith gmul invMixCoefficients s

/-- MixColumns as either multiplier implementation makes it (40_galois.md R137; log 20). -/
def mixColumnsBy (impl : Config.MulImpl) (s : Block) : Block := mixWith (mulBy impl) mixCoefficients s

/-- InvMixColumns as either multiplier implementation makes it (40_galois.md R137; log 20). -/
def invMixColumnsBy (impl : Config.MulImpl) (s : Block) : Block := mixWith (mulBy impl) invMixCoefficients s

/-- XOR a block with a round key (43_block_transform.md R196). -/
def addRoundKey (s k : Block) : Block := tabulate fun i => s.get i ^^^ k.get i

/-- SUB_BYTES (43_block_transform.md R198). -/
def execSubBytes (s : State) : Host.Outcome State Fault Refusal :=
  runCommand (checkBlock s) (fun s => { s with blk := subBytes s.blk }) s

/-- INV_SUB_BYTES (43_block_transform.md R199). -/
def execInvSubBytes (s : State) : Host.Outcome State Fault Refusal :=
  runCommand (checkBlock s) (fun s => { s with blk := invSubBytes s.blk }) s

/-- SHIFT_ROWS (43_block_transform.md R200). -/
def execShiftRows (s : State) : Host.Outcome State Fault Refusal :=
  runCommand (checkBlock s) (fun s => { s with blk := shiftRows s.blk }) s

/-- INV_SHIFT_ROWS (43_block_transform.md R201). -/
def execInvShiftRows (s : State) : Host.Outcome State Fault Refusal :=
  runCommand (checkBlock s) (fun s => { s with blk := invShiftRows s.blk }) s

/-- MIX_COLUMNS (43_block_transform.md R202). -/
def execMixColumns (s : State) : Host.Outcome State Fault Refusal :=
  runCommand (checkBlock s) (fun s => { s with blk := mixColumns s.blk }) s

/-- INV_MIX_COLUMNS (43_block_transform.md R203). -/
def execInvMixColumns (s : State) : Host.Outcome State Fault Refusal :=
  runCommand (checkBlock s) (fun s => { s with blk := invMixColumns s.blk }) s

/-- ADD_ROUND_KEY (43_block_transform.md R204). With the checks passed ARG0 selects a round key. -/
def execAddRoundKey (s : State) : Host.Outcome State Fault Refusal :=
  runCommand (checkAddRoundKey s)
    (fun s => match selectedRoundKey s with
      | some k => { s with blk := addRoundKey s.blk k }
      | none => s) s

end Sys2Proof.Machine
end

