-- ==== Sys2Proof/Machine/KeySchedule.lean ====
section
/-! DEFINITION. The key-schedule expander and its command EXPAND (42_key_schedule.md). -/

namespace Sys2Proof.Machine

/-- Step 1: cyclic left rotation, the byte at offset 0 moves to offset 3 (42_key_schedule.md R171). -/
def rotWord (w : KeyWord) : KeyWord := ⟨w.b1, w.b2, w.b3, w.b0⟩

/-- Step 2: substitute each byte (42_key_schedule.md R171). -/
def subWord (w : KeyWord) : KeyWord := ⟨sbox w.b0, sbox w.b1, sbox w.b2, sbox w.b3⟩

/-- Step 3: XOR the round constant into the first byte only (42_key_schedule.md R171). -/
def addRcon (w : KeyWord) (r : Nat) : KeyWord := { w with b0 := w.b0 ^^^ rcon r }

/-- Round key `r` from round key `r - 1` (42_key_schedule.md R171). -/
def keyStep (prev : Block) (r : Nat) : Block :=
  let t := addRcon (subWord (rotWord (wordAt prev 3))) r
  let w0 := (wordAt prev 0).xor t
  let w1 := (wordAt prev 1).xor w0
  let w2 := (wordAt prev 2).xor w1
  let w3 := (wordAt prev 3).xor w2
  ofWords w0 w1 w2 w3

/-- Round key `r` of the schedule of a key: the fold over the rounds (42_key_schedule.md R172). -/
def roundKey (key : Block) : Nat → Block
  | 0 => key
  | r + 1 => keyStep (roundKey key r) (r + 1)

/-- The 11 round keys of a key (42_key_schedule.md R172). -/
def expandKey (key : Block) : Schedule :=
  #v[roundKey key 0, roundKey key 1, roundKey key 2, roundKey key 3, roundKey key 4, roundKey key 5,
     roundKey key 6, roundKey key 7, roundKey key 8, roundKey key 9, roundKey key 10]

/-- EXPAND (42_key_schedule.md R173). -/
def execExpand (s : State) : Host.Outcome State Fault Refusal :=
  runCommand (checkKey s) (fun s => { s with rk := expandKey s.key, schedValid := true }) s

end Sys2Proof.Machine
end

