-- ==== Sys2Proof/Machine/CipherEngine.lean ====
section
/-! DEFINITION. The round-envelope orchestrator: the two round pipelines, the micro-sequences, and the
commands ENCRYPT and DECRYPT (44_cipher_engine.md). -/

namespace Sys2Proof.Machine

/-- The rounds 1..9 in the order ENCRYPT takes them (44_cipher_engine.md R230). -/
def roundsUp : List (Fin 11) := [1, 2, 3, 4, 5, 6, 7, 8, 9]

/-- The rounds 9 down to 1, the order of DECRYPT (44_cipher_engine.md R231). -/
def roundsDown : List (Fin 11) := [9, 8, 7, 6, 5, 4, 3, 2, 1]

/-- One full encryption round (44_cipher_engine.md R230, step 2). -/
def encryptRound (rk : Schedule) (s : Block) (round : Fin 11) : Block :=
  addRoundKey (mixColumns (shiftRows (subBytes s))) (rk.get round)

/-- One full decryption round: the key is added before InvMixColumns (44_cipher_engine.md R231, step 2). -/
def decryptRound (rk : Schedule) (s : Block) (round : Fin 11) : Block :=
  invMixColumns (addRoundKey (invSubBytes (invShiftRows s)) (rk.get round))

/-- `encrypt(p, rk)`; round 10 has no mixColumns (44_cipher_engine.md R230, R232). -/
def encrypt (p : Block) (rk : Schedule) : Block :=
  let s := roundsUp.foldl (encryptRound rk) (addRoundKey p (rk.get 0))
  addRoundKey (shiftRows (subBytes s)) (rk.get 10)

/-- `decrypt(c, rk)`; the last step has no invMixColumns (44_cipher_engine.md R231, R232). -/
def decrypt (c : Block) (rk : Schedule) : Block :=
  let s := roundsDown.foldl (decryptRound rk) (addRoundKey c (rk.get 10))
  addRoundKey (invSubBytes (invShiftRows s)) (rk.get 0)

/-- A micro-operation on the working block (44_cipher_engine.md R234, R235). -/
inductive MicroOp
  | addRoundKey (r : Fin 11)
  | subBytes
  | shiftRows
  | mixColumns
  | invShiftRows
  | invSubBytes
  | invMixColumns
deriving DecidableEq, Repr

/-- What a micro-operation does to the working block. -/
def runMicroOp (rk : Schedule) (w : Block) : MicroOp → Block
  | .addRoundKey r => addRoundKey w (rk.get r)
  | .subBytes => subBytes w
  | .shiftRows => shiftRows w
  | .mixColumns => mixColumns w
  | .invShiftRows => invShiftRows w
  | .invSubBytes => invSubBytes w
  | .invMixColumns => invMixColumns w

/-- The four micro-operations of an encryption round, UIDX 4r-3..4r (44_cipher_engine.md R234). -/
def encryptRoundOps (r : Fin 11) : List MicroOp := [.subBytes, .shiftRows, .mixColumns, .addRoundKey r]

/-- The four micro-operations of a decryption round, UIDX 4k+1..4k+4 (44_cipher_engine.md R235). -/
def decryptRoundOps (r : Fin 11) : List MicroOp :=
  [.invShiftRows, .invSubBytes, .addRoundKey r, .invMixColumns]

/-- The micro-sequence of ENCRYPT, UIDX 0..39 (44_cipher_engine.md R234). -/
def encryptSequence : List MicroOp :=
  .addRoundKey 0 :: (roundsUp.flatMap encryptRoundOps).append [.subBytes, .shiftRows, .addRoundKey 10]

/-- The micro-sequence of DECRYPT, UIDX 0..39 (44_cipher_engine.md R235). -/
def decryptSequence : List MicroOp :=
  .addRoundKey 10 ::
    (roundsDown.flatMap decryptRoundOps).append [.invShiftRows, .invSubBytes, .addRoundKey 0]

/-- The working block after the first `u` micro-operations of a sequence (44_cipher_engine.md R234). -/
def workingBlock (rk : Schedule) (w : Block) (ops : List MicroOp) (u : Nat) : Block :=
  (ops.take u).foldl (runMicroOp rk) w

/-- The expander's working copy after `u` micro-steps: round keys 0..u (42_key_schedule.md R174). -/
def workingSchedule (key : Block) (u : Nat) : List Block := (List.range (u + 1)).map (roundKey key)

/-- The number of micro-operations of a command: 40 for ENCRYPT and DECRYPT, 10 for EXPAND, one for every
other command (44_cipher_engine.md R233, 42_key_schedule.md R174). -/
def sequenceLength : Instr → Nat
  | .encrypt => encryptSequence.length
  | .decrypt => decryptSequence.length
  | .expand => 10
  | .nop | .subBytes | .invSubBytes | .shiftRows | .invShiftRows | .mixColumns | .invMixColumns
  | .addRoundKey | .gfMul | .sbox | .invSbox | .rcon | .clearAll | .clearKey | .clearBlk => 1
  | .rd _ | .wr _ _ => 0

/-- Whether the command in progress still has a micro-step to perform: a command whose check fails performs
none (44_cipher_engine.md R233, 42_key_schedule.md R174). -/
def microReady (s : State) : Bool :=
  match s.phase with
  | .idle => false
  | .busy =>
    match decodeCommand s.pendOp with
    | .ok i => (commandCheck i s).isNone && s.uidx < sequenceLength i
    | .error _ => false

/-- One hidden micro-step: UIDX goes up by exactly 1 and nothing else of the state changes; the working copies
are functions of UIDX (10_state.md R32, R47; 44_cipher_engine.md R233; log 6). -/
def microStep (s : State) : State := if microReady s then { s with uidx := s.uidx + 1 } else s

/-- ENCRYPT (44_cipher_engine.md R236). -/
def execEncrypt (s : State) : Host.Outcome State Fault Refusal :=
  runCommand (checkCipher s) (fun s => { s with blk := encrypt s.blk s.rk }) s

/-- DECRYPT (44_cipher_engine.md R237). -/
def execDecrypt (s : State) : Host.Outcome State Fault Refusal :=
  runCommand (checkCipher s) (fun s => { s with blk := decrypt s.blk s.rk }) s

end Sys2Proof.Machine
end

