-- ==== Sys2Proof/Machine/HostPort.lean ====
section
/-! DEFINITION. The host port: the two transactions, the control commands, and the outcome of a reserved
opcode (45_host_port.md; 60_exceptions.md R284). -/

namespace Sys2Proof.Machine

/-- `value(a)`: the "read" column of 20_memory.md R71 in the current state. -/
def value (l : Location) (s : State) : Byte :=
  match l with
  | .cmd => 0x00
  | .status => statusByte s
  | .errcode => s.errcode
  | .ctrl => ctrlByte s
  | .keyCnt => s.keyCnt
  | .blkCnt => s.blkCnt
  | .arg0 => s.arg0
  | .arg1 => s.arg1
  | .result => s.result
  | .keyIn => 0x00
  | .blkIn => 0x00
  | .state i => s.blk.get i
  | .key i => s.key.get i
  | .rk r i => (s.rk.get r).get i
  | .reserved => 0x00

/-- The STATE row of the write-set table. -/
def stateMask : Location → Byte
  | .state _ => 0xFF
  | _ => 0x00

/-- The RESULT row of the write-set table. -/
def resultMask : Location → Byte
  | .result => 0xFF
  | _ => 0x00

/-- `writeSet(op)` of 45_host_port.md R260: the bits of a location whose reads are unspecified while the
command is in progress. All bits of an address in the set, in STATUS only those the table names. -/
def writeMask (i : Instr) (l : Location) : Byte :=
  match i with
  | .expand =>
    match l with
    | .rk _ _ => 0xFF
    | .status => 0x08
    | _ => 0x00
  | .encrypt | .decrypt | .subBytes | .invSubBytes | .shiftRows | .invShiftRows | .mixColumns
  | .invMixColumns | .addRoundKey => stateMask l
  | .gfMul | .sbox | .invSbox | .rcon => resultMask l
  | .clearKey =>
    match l with
    | .keyCnt | .key _ => 0xFF
    | _ => 0x00
  | .clearBlk =>
    match l with
    | .blkCnt | .state _ => 0xFF
    | _ => 0x00
  | .clearAll =>
    match l with
    | .keyCnt | .blkCnt | .arg0 | .arg1 | .result | .state _ | .key _ | .rk _ _ => 0xFF
    | .status => 0x18
    | _ => 0x00
  | .nop | .rd _ | .wr _ _ => 0x00

/-- The write set of the command in progress; nothing is unspecified while idle, nor for a reserved opcode
(45_host_port.md R260). -/
def unspecifiedBits (l : Location) (s : State) : Byte :=
  match s.phase with
  | .idle => 0x00
  | .busy =>
    match decodeCommand s.pendOp with
    | .ok i => writeMask i l
    | .error _ => 0x00

/-- The specified part of a read while BUSY: ERRCODE reads 0x00; where STATUS is in the write set, bit 0 reads
1 and bits 1 and 2 read 0 (45_host_port.md R260; log 9). -/
def busyValue (l : Location) (s : State) : Byte :=
  match l with
  | .errcode => 0x00
  | .status =>
    if unspecifiedBits .status s = 0x00 then statusByte s
    else packStatus s.coll s.schedValid false false true
  | _ => value l s

/-- The byte `MemRead(a, 1)` returns; unspecified bits are those of the next free byte
(45_host_port.md R260; log 4). -/
def memRead (a : Byte) (s : State) : Byte :=
  let l := locate a
  match s.phase with
  | .idle => value l s
  | .busy =>
    let mask := unspecifiedBits l s
    if mask = 0x00 then busyValue l s
    else if mask = 0xFF then Config.freeByte s.draws
    else (Config.freeByte s.draws &&& mask) ||| (busyValue l s &&& ~~~mask)

/-- Whether `MemRead(a, 1)` draws a free byte. -/
def readDraws (a : Byte) (s : State) : Bool := unspecifiedBits (locate a) s != 0x00

/-- `rd a`: no state changes; the byte goes to the host on `rdata` (45_host_port.md R260, 20_memory.md R86). -/
def execRd (a : Byte) (s : State) : Host.Outcome State Fault Refusal :=
  .next (returnByte (memRead a s) (if readDraws a s then countDraw s else s))

/-- The "write" column of 20_memory.md R71: the effect of a write while idle (45_host_port.md R261). -/
def idleWrite (l : Location) (v : Byte) (s : State) : State :=
  match l with
  | .cmd => accept v s
  | .status => statusWrite v s
  | .ctrl => ctrlWrite v s
  | .arg0 => arg0Write v s
  | .arg1 => arg1Write v s
  | .keyIn => keyIn v s
  | .blkIn => blkIn v s
  | .errcode | .keyCnt | .blkCnt | .result | .state _ | .key _ | .rk _ _ | .reserved => s

/-- `wr a, v` (45_host_port.md R261). -/
def execWr (a v : Byte) (s : State) : Host.Outcome State Fault Refusal :=
  match s.phase with
  | .busy => .next (dropWrite s)
  | .idle => .next (idleWrite (locate a) v s)

/-- NOP (45_host_port.md R268). -/
def execNop (s : State) : Host.Outcome State Fault Refusal := runCommand none (fun s => s) s

/-- Every register except CTRL takes its reset value (45_host_port.md R269; log 8). -/
def clearAll (s : State) : State :=
  { s with
    blk := zeroBlock, key := zeroBlock, rk := zeroSchedule, keyCnt := 0x00, blkCnt := 0x00,
    arg0 := 0x00, arg1 := 0x00, result := 0x00, schedValid := false, coll := false }

/-- CLEAR_ALL (45_host_port.md R269). -/
def execClearAll (s : State) : Host.Outcome State Fault Refusal := runCommand none clearAll s

/-- CLEAR_KEY (45_host_port.md R270). -/
def execClearKey (s : State) : Host.Outcome State Fault Refusal :=
  runCommand none (fun s => { s with key := zeroBlock, keyCnt := 0x00 }) s

/-- CLEAR_BLK (45_host_port.md R271). -/
def execClearBlk (s : State) : Host.Outcome State Fault Refusal :=
  runCommand none (fun s => { s with blk := zeroBlock, blkCnt := 0x00 }) s

/-- The command rule of every reserved opcode (60_exceptions.md R284). -/
def reservedCommand (s : State) : Host.Outcome State Fault Refusal :=
  runCommand (some .illegalCommand) (fun s => s) s

end Sys2Proof.Machine
end

