-- ==== Sys2Proof/Machine/Agents.lean ====
section
/-! DEFINITION. The steps of the two agents and of the reset input (00_scope.md R8; 45_host_port.md R272;
70_reset_and_hazards.md R310), the host program, and the cycles of a command (20_memory.md R86). -/

namespace Sys2Proof.Machine

/-- The instruction a transaction word carries onto the bus. -/
def fetchWord (w : BitVec 17) : Instr := decodeTransaction w

/-- The transaction of one `poll` read: `rd STATUS` (30_encoding.md R107). -/
def pollWord : BitVec 17 := transactionWord false 0x01 0x00

/-- After a read of `poll`: repeat it while BUSY read 1 (30_encoding.md R107; log 19). -/
def repeatPoll (s : State) : State :=
  match s.rdata with
  | some v => if v[0] then { s with program := .poll :: s.program } else s
  | none => s

/-- A step of the host: its next transaction; with no transaction left, an idle cycle (00_scope.md R8;
30_encoding.md R110; log 14). -/
def hostStep (s : State) : Host.Outcome State Fault Refusal :=
  match s.program with
  | [] => .next s
  | .word w :: rest => exec (fetchWord w) { s with program := rest }
  | .poll :: rest =>
    match exec (fetchWord pollWord) { s with program := rest } with
    | .next t => .next (repeatPoll t)
    | .fault r => .fault r
    | .refused r => .refused r

/-- The step of the core: the command rule of PEND_OP while BUSY, nothing while IDLE (45_host_port.md R272;
log 14). -/
def coreStep (s : State) : Host.Outcome State Fault Refusal :=
  match s.phase with
  | .idle => .next s
  | .busy =>
    match decodeCommand s.pendOp with
    | .ok i => exec i s
    | .error _ => reservedCommand s

/-- The host's transaction in a cycle with `rst` = 1: a write has no effect, a read returns a free byte
(70_reset_and_hazards.md R310; logs 4, 15). -/
def hostInReset (s : State) : State :=
  match s.program with
  | [] => s
  | .word w :: rest =>
    if w[16] then { s with program := rest }
    else returnByte (Config.freeByte s.draws) (countDraw { s with program := rest })
  | .poll :: rest =>
    repeatPoll (returnByte (Config.freeByte s.draws) (countDraw { s with program := rest }))

/-- An edge with `rst` = 1 (70_reset_and_hazards.md R310, R312). -/
def resetStep (drives : Bool) (s : State) : State :=
  if drives then hostInReset (resetCore s) else resetCore s

/-- The move of an agent. -/
def turnStep (t : Turn) (s : State) : Host.Outcome State Fault Refusal :=
  match t with
  | .host => hostStep s
  | .core => coreStep s
  | .micro => .next (microStep s)
  | .rst drives => .next (resetStep drives s)

/-- Who moves next: the head of `turns`; with `turns` used up, the core while a command is in progress and
otherwise the host (00_scope.md R8, 70_reset_and_hazards.md R318; logs 1, 2). -/
def nextTurn (s : State) : Turn :=
  match s.turns with
  | t :: _ => t
  | [] =>
    match s.phase with
    | .busy => .core
    | .idle => .host

/-- The turns of the cycles from the one after acceptance to the completing one, `lat` of them: in cycle `k`
(from 1) the host has a transaction when `drives k`; the completion falls on the edge of the last cycle, and a
transaction of that cycle is judged against the state before it (20_memory.md R86, 70_reset_and_hazards.md
R318; log 10). -/
def cycleTurns (lat : Nat) (drives : Nat → Bool) : List Turn :=
  (List.range lat).flatMap (fun k => if drives (k + 1) then [.host] else []) ++ [.core]

/-- The turns from the acceptance of `op` to its completion (70_reset_and_hazards.md R318). -/
def commandTurns (op : Byte) (drives : Nat → Bool) : List Turn :=
  .host :: cycleTurns (Config.lat op) drives

end Sys2Proof.Machine
end

