-- ==== Sys2Proof/Machine/Step.lean ====
section
/-! DEFINITION. One step of the machine, and how an instruction is placed before it. -/

namespace Sys2Proof.Machine

/-- One step: the agent whose turn it is moves (00_scope.md R8; logs 1, 2). -/
def step (s : State) : Host.Outcome State Fault Refusal :=
  turnStep (nextTurn s) { s with turns := s.turns.tail }

/-- The instruction of `nbits` bits `w`, numbered as the opcode table numbers them, placed where the next step
runs it: a command accepted and the core's turn, a transaction at the head of the host program and the host's
turn (log 3). -/
def State.withFetchWord (s : State) (nbits w : Nat) : State :=
  if nbits ≤ 8 then { accept (BitVec.ofNat 8 w) s with turns := .core :: s.turns }
  else { s with program := .word (BitVec.ofNat 17 w) :: s.program, turns := .host :: s.turns }

end Sys2Proof.Machine
end

