-- ==== Sys2Proof/Machine/HostProgram.lean ====
section
/-! DEFINITION. Host programs as they are written: transactions and pseudo-instructions, and their expansion
into transaction words (30_encoding.md R106 to R110). Numbers are as written; WellFormed.lean bounds them. -/

namespace Sys2Proof.Machine

/-- A line of a host program (30_encoding.md R106, R107). -/
inductive HostLine
  | wr (addr data : Nat)
  | rd (addr : Nat)
  | cmd (op : Nat)
  | poll
  | run (op : Nat)
  | loadkey (bytes : List Nat)
  | loadblk (bytes : List Nat)
  | setarg (a : Nat) (b : Option Nat)
  | readblk
  | readrk (r : Nat)
deriving DecidableEq, Repr

/-- The item of `wr ADDR, DATA` (30_encoding.md R106). -/
def writeItem (addr data : Nat) : HostItem :=
  .word (transactionWord true (BitVec.ofNat 8 addr) (BitVec.ofNat 8 data))

/-- The item of `rd ADDR` (30_encoding.md R106). -/
def readItem (addr : Nat) : HostItem := .word (transactionWord false (BitVec.ofNat 8 addr) 0x00)

/-- `op` of a mnemonic (30_encoding.md R107); a transaction is no mnemonic of `cmd`. -/
def mnemonicOpcode (i : Instr) : Option Byte :=
  match encode i with
  | .command op => some op
  | .transaction _ => none

/-- The expansion of a line (30_encoding.md R107). -/
def expandLine : HostLine → List HostItem
  | .wr a d => [writeItem a d]
  | .rd a => [readItem a]
  | .cmd op => [writeItem 0x00 op]
  | .poll => [.poll]
  | .run op => [writeItem 0x00 op, .poll]
  | .loadkey bs => bs.map (writeItem 0x09)
  | .loadblk bs => bs.map (writeItem 0x0A)
  | .setarg a none => [writeItem 0x06 a]
  | .setarg a (some b) => [writeItem 0x06 a, writeItem 0x07 b]
  | .readblk => (List.range 16).map (fun i => readItem (0x10 + i))
  | .readrk r => (List.range 16).map (fun i => readItem (0x30 + 16 * r + i))

/-- A program runs from its first line to its last (30_encoding.md R110). -/
def assemble (lines : List HostLine) : List HostItem := lines.flatMap expandLine

end Sys2Proof.Machine
end

