-- ==== Sys2Proof/Safety.lean ====
section
/-! DEFINITION. What counts as a good state and a safe run: the invariants of the machine, each of them kept by
every step. -/

namespace Sys2Proof.Machine

/-- A step is safe if it answers a next state. -/
def Safe (s : State) : Prop := ∃ t, step s = .next t

/-- ERRCODE holds one of the five codes (10_state.md R43). -/
def ErrcodeLegal (s : State) : Prop := ∃ e : ErrCode, s.errcode = e.byte

/-- The sequencer: while idle UIDX is 0; while BUSY, DONE and ERRCODE are clear; UIDX stays within the
sequence of the command in progress and leaves 0 only for a command whose checks pass (10_state.md R42, R43, R47;
44_cipher_engine.md R233). -/
structure SequencerOk (s : State) : Prop where
  idle_zero : s.phase = .idle → s.uidx = 0
  busy_done : s.phase = .busy → s.done = false
  busy_errcode : s.phase = .busy → s.errcode = 0x00
  moved : 0 < s.uidx →
    ∃ i, decodeCommand s.pendOp = .ok i ∧ commandCheck i s = none ∧ s.uidx ≤ sequenceLength i

/-- RK and SCHED_VALID: a valid schedule is the expansion of a key, and without one the file is all zero
(10_state.md R36). -/
structure ScheduleOk (s : State) : Prop where
  valid : s.schedValid = true → ∃ k, s.rk = expandKey k
  invalid : s.schedValid = false → s.rk = zeroSchedule

/-- The buffers hold 0x00 from their counts on (45_host_port.md R262, R263). -/
structure BuffersOk (s : State) : Prop where
  key_tail : ∀ i : Fin 16, s.keyCnt.toNat ≤ i.val → s.key.get i = 0x00
  blk_tail : ∀ i : Fin 16, s.blkCnt.toNat ≤ i.val → s.blk.get i = 0x00

/-- The invariant of the machine. -/
structure Inv (s : State) : Prop where
  errcode : ErrcodeLegal s
  sequencer : SequencerOk s
  schedule : ScheduleOk s
  buffers : BuffersOk s

end Sys2Proof.Machine
end

