-- ==== Sys2Proof/WellFormed.lean ====
section
/-! DEFINITION. What a well-formed instruction and a well-formed line of a host program are. -/

namespace Sys2Proof

/-- Every term of `Instr` is well formed: commands have no field, and the operands of `rd` and `wr` are bytes by
type, every address and every byte being allowed (30_encoding.md R100; 20_memory.md R71). -/
def Instr.wellFormed : Instr → Bool
  | .nop | .expand | .encrypt | .decrypt | .subBytes | .invSubBytes | .shiftRows | .invShiftRows
  | .mixColumns | .invMixColumns | .addRoundKey | .gfMul | .sbox | .invSbox | .rcon | .clearAll
  | .clearKey | .clearBlk => true
  | .rd _ => true
  | .wr _ _ => true

/-- A number that fits a byte (30_encoding.md R106: an address or a datum). -/
def fitsByte (n : Nat) : Bool := n < 256

/-- A line whose numbers are what 30_encoding.md R106 and R107 allow. `loadkey` and `loadblk` may give any
number of bytes, as the programs of 95_test_vectors.md do (log 19). -/
def Machine.HostLine.wellFormed : Machine.HostLine → Bool
  | .wr a d => fitsByte a && fitsByte d
  | .rd a => fitsByte a
  | .cmd op => fitsByte op
  | .poll => true
  | .run op => fitsByte op
  | .loadkey bs => bs.all fitsByte
  | .loadblk bs => bs.all fitsByte
  | .setarg a none => fitsByte a
  | .setarg a (some b) => fitsByte a && fitsByte b
  | .readblk => true
  | .readrk r => r ≤ 10

end Sys2Proof
end

