-- ==== Sys2Proof/Certificates/Slice0/Obligations.lean ====
section
/-! DEFINITION. The statements for the provers. `finished code s` is the completion every command ends in; an
equation `exec i s = .next { s with … }` says the result and the whole frame at once: every field it does not
name is unchanged. -/

namespace Sys2Proof.Claims

open Sys2Proof.Machine

/-- The completion fields written (45_host_port.md R272): ERRCODE, DONE, PHASE, UIDX. -/
def finished (code : Byte) (s : State) : State :=
  { s with errcode := code, done := true, phase := .idle, uidx := 0 }

/-- The 18 commands. -/
def commands : List Instr :=
  [.nop, .expand, .encrypt, .decrypt, .subBytes, .invSubBytes, .shiftRows, .invShiftRows, .mixColumns,
   .invMixColumns, .addRoundKey, .gfMul, .sbox, .invSbox, .rcon, .clearAll, .clearKey, .clearBlk]

/-- The 18 defined opcodes (30_encoding.md R102). -/
def definedOpcodes : List Byte :=
  [0x00, 0x01, 0x02, 0x03, 0x10, 0x11, 0x12, 0x13, 0x14, 0x15, 0x16, 0x20, 0x21, 0x22, 0x23, 0xF0, 0xF1, 0xF2]

/-- The write-set table of 45_host_port.md R260 for whole addresses: pending opcode and address. -/
abbrev wholeByteUnspecified (op a : Nat) : Prop :=
  (op = 0x01 ∧ 0x30 ≤ a ∧ a ≤ 0xDF) ∨
  ((op = 0x02 ∨ op = 0x03 ∨ (0x10 ≤ op ∧ op ≤ 0x16)) ∧ 0x10 ≤ a ∧ a ≤ 0x1F) ∨
  ((0x20 ≤ op ∧ op ≤ 0x23) ∧ a = 0x08) ∨
  (op = 0xF1 ∧ (a = 0x04 ∨ (0x20 ≤ a ∧ a ≤ 0x2F))) ∨
  (op = 0xF2 ∧ (a = 0x05 ∨ (0x10 ≤ a ∧ a ≤ 0x1F))) ∨
  (op = 0xF0 ∧ ((0x04 ≤ a ∧ a ≤ 0x08) ∨ (0x10 ≤ a ∧ a ≤ 0xDF)))

/-- The bytes of two states' data and control registers, STATUS.COLL apart, agree. -/
def sameRegistersButColl (s t : State) : Prop :=
  t.blk = s.blk ∧ t.key = s.key ∧ t.rk = s.rk ∧ t.keyCnt = s.keyCnt ∧ t.blkCnt = s.blkCnt ∧
  t.arg0 = s.arg0 ∧ t.arg1 = s.arg1 ∧ t.result = s.result ∧ t.done = s.done ∧
  t.schedValid = s.schedValid ∧ t.errcode = s.errcode ∧ t.ie = s.ie ∧ t.phase = s.phase ∧
  t.pendOp = s.pendOp

/-- The micro-operations from UIDX `u` on begin with the given ones. -/
def opsAt (sequence : List MicroOp) (u : Nat) (ops : List MicroOp) : Prop :=
  (sequence.drop u).take ops.length = ops

/-- How many of the cycles 1..n have a host transaction on the bus. -/
def drivenCycles (drives : Nat → Bool) (n : Nat) : Nat := ((List.range' 1 n).filter drives).length

end Sys2Proof.Claims

open Sys2Proof Sys2Proof.Machine Sys2Proof.Claims

/-! ## Encoding -/

/-- Decoding an encoded instruction gives it back, with every operand at every value; the transaction word that
carries it is decoded as that transaction, a command travelling as a write of its opcode to CMD; and whatever
decodes is the encoding of what it decodes to, but for the ignored data byte of a read (30_encoding.md R100; log
7). -/
def Obligations.DecodeAndEncodeAgree : Prop :=
  (∀ i : Instr,
    decode (encode i) = .ok i ∧
    decode (.transaction (hostWord i)) =
      .ok (match encode i with
        | .command op => .wr 0x00 op
        | .transaction _ => i)) ∧
  (∀ (e : Encoded) (i : Instr), decode e = .ok i →
    e = encode i ∨ ∃ a d, i = .rd a ∧ e = .transaction (transactionWord false a d))

/-- A word of each family, written out from 30_encoding.md R100 and R102, decodes to its instruction; the opcodes
that decode are the 18 of R102, and 238 do not (R104). -/
def Obligations.SampleWordsDecodeAndOthersAreReserved : Prop :=
  (decode (.command 0b00000001#8) = .ok .expand ∧
   decode (.command 0b00000010#8) = .ok .encrypt ∧
   decode (.command 0b00010110#8) = .ok .addRoundKey ∧
   decode (.command 0b00100000#8) = .ok .gfMul ∧
   decode (.command 0b00100010#8) = .ok .invSbox ∧
   decode (.command 0b11110010#8) = .ok .clearBlk ∧
   decode (.transaction 0b0_00001000_00000000#17) = .ok (.rd 0x08) ∧
   decode (.transaction 0b1_00001001_00110001#17) = .ok (.wr 0x09 0x31)) ∧
  (∀ op : Byte, (∃ i, decodeCommand op = .ok i) ↔ op ∈ definedOpcodes) ∧
  ((List.range 256).filter fun n => (decodeCommand (BitVec.ofNat 8 n)).toOption.isNone).length = 238

/-- The two transactions of a host program are sent as the words of 30_encoding.md R106, and its
pseudo-instructions expand into them as R107 says. That `poll` is one item of a program, and that `loadkey` and
`loadblk` may give any number of bytes, is the model's reading (log 19). -/
def Obligations.PseudoInstructionsExpand : Prop :=
  (∀ a d, expandLine (.wr a d) =
    [.word (transactionWord true (BitVec.ofNat 8 a) (BitVec.ofNat 8 d))]) ∧
  (∀ a, expandLine (.rd a) = [.word (transactionWord false (BitVec.ofNat 8 a) 0x00)]) ∧
  (∀ op, expandLine (.cmd op) = expandLine (.wr 0x00 op)) ∧
  (∀ op, expandLine (.run op) = expandLine (.cmd op) ++ expandLine .poll) ∧
  expandLine .poll = [.poll] ∧
  (∀ bs, expandLine (.loadkey bs) = bs.flatMap fun b => expandLine (.wr 0x09 b)) ∧
  (∀ bs, expandLine (.loadblk bs) = bs.flatMap fun b => expandLine (.wr 0x0A b)) ∧
  (∀ a, expandLine (.setarg a none) = expandLine (.wr 0x06 a)) ∧
  (∀ a b, expandLine (.setarg a (some b)) = expandLine (.wr 0x06 a) ++ expandLine (.wr 0x07 b)) ∧
  expandLine .readblk = (List.range 16).flatMap (fun i => expandLine (.rd (0x10 + i))) ∧
  (∀ r, expandLine (.readrk r) = (List.range 16).flatMap fun i => expandLine (.rd (0x30 + 16 * r + i)))

/-! ## A step -/

/-- The core's turn while BUSY runs the command the pending opcode decodes to (45_host_port.md R272). -/
def Obligations.CoreTurnRunsTheDecodedCommand : Prop :=
  ∀ (s : State) (ts : List Turn) (i : Instr),
    s.turns = .core :: ts → s.phase = .busy → decode (.command s.pendOp) = .ok i →
    step s = exec i { s with turns := ts }

/-- The host's turn runs the transaction the next word of its program decodes to and consumes the word
(30_encoding.md R110). -/
def Obligations.HostTurnRunsTheDecodedTransaction : Prop :=
  ∀ (s : State) (ts : List Turn) (w : BitVec 17) (rest : List HostItem) (i : Instr),
    s.turns = .host :: ts → s.program = .word w :: rest → decode (.transaction w) = .ok i →
    step s = exec i { s with turns := ts, program := rest }

/-- `poll` reads STATUS: while BUSY it reads bit 0 = 1 and stays, while idle it reads STATUS and is consumed
(30_encoding.md R107). How the read byte's other bits come about is the read rule's. -/
def Obligations.PollRepeatsWhileBusy : Prop :=
  ∀ (s : State) (ts : List Turn) (rest : List HostItem),
    s.turns = .host :: ts → s.program = .poll :: rest →
    (s.phase = .busy → ∃ v d, v[0] = true ∧
      step s = .next { s with turns := ts, rdata := some v, draws := d }) ∧
    (s.phase = .idle →
      step s = .next { s with turns := ts, program := rest, rdata := some (statusByte s) })

/-- A turn without work is only used up: the core's while idle, a micro-step's while idle, the host's with nothing
to send (45_host_port.md R272; 70_reset_and_hazards.md R311). With no turn left the core completes the command in
progress first and the host moves otherwise: the model's choice (log 2). -/
def Obligations.TurnsWithoutWorkChangeNothing : Prop :=
  (∀ (s : State) (ts : List Turn),
    (s.turns = .core :: ts → s.phase = .idle → step s = .next { s with turns := ts }) ∧
    (s.turns = .micro :: ts → s.phase = .idle → step s = .next { s with turns := ts }) ∧
    (s.turns = .host :: ts → s.program = [] → step s = .next { s with turns := ts })) ∧
  (∀ s : State, s.turns = [] →
    (s.phase = .busy → step s = step { s with turns := [.core] }) ∧
    (s.phase = .idle → step s = step { s with turns := [.host] }))

/-- A micro-step changes UIDX alone, by exactly 1, and only below the length of the sequence of a command whose
checks pass (10_state.md R32; 44_cipher_engine.md R233). -/
def Obligations.MicroTurnCountsUidxUpByOne : Prop :=
  ∀ (s : State) (ts : List Turn) (i : Instr),
    s.turns = .micro :: ts → s.phase = .busy → decode (.command s.pendOp) = .ok i →
    (commandCheck i s = none → s.uidx < sequenceLength i →
      step s = .next { s with turns := ts, uidx := s.uidx + 1 }) ∧
    (commandCheck i s ≠ none ∨ sequenceLength i ≤ s.uidx → step s = .next { s with turns := ts })

/-- No state stops the machine: every step of every agent in every state answers a next state (no encoding, access
or argument of this hardware is without an outcome; log 16). -/
def Obligations.EveryStepAnswersANextState : Prop := ∀ s : State, Safe s

/-! ## Transactions -/

/-- A read, at any address and any time, changes no register and no flag: only the byte on `rdata` and the count
of draws are new, and it always completes (45_host_port.md R260; 20_memory.md R78). -/
def Obligations.ReadsChangeNoRegister : Prop :=
  ∀ (a : Byte) (s : State), ∃ v d, exec (.rd a) s = .next { s with rdata := some v, draws := d }

/-- While idle a read returns the "read" column of the address map, address by address, and draws nothing. -/
def Obligations.IdleReadsFollowTheAddressMap : Prop :=
  ∀ s : State, s.phase = .idle →
    let reads (a v : Byte) : Prop := exec (.rd a) s = .next { s with rdata := some v }
    reads 0x00 0x00 ∧ reads 0x01 (statusByte s) ∧ reads 0x02 s.errcode ∧
    reads 0x03 (if s.ie then 0x01 else 0x00) ∧ reads 0x04 s.keyCnt ∧ reads 0x05 s.blkCnt ∧
    reads 0x06 s.arg0 ∧ reads 0x07 s.arg1 ∧ reads 0x08 s.result ∧ reads 0x09 0x00 ∧ reads 0x0A 0x00 ∧
    (∀ i : Fin 16, reads (BitVec.ofNat 8 (0x10 + i.val)) (s.blk.get i)) ∧
    (∀ i : Fin 16, reads (BitVec.ofNat 8 (0x20 + i.val)) (s.key.get i)) ∧
    (∀ (r : Fin 11) (i : Fin 16),
      reads (BitVec.ofNat 8 (0x30 + 16 * r.val + i.val)) ((s.rk.get r).get i)) ∧
    (∀ a : Byte, (0x0B ≤ a.toNat ∧ a.toNat ≤ 0x0F) ∨ 0xE0 ≤ a.toNat → reads a 0x00)

/-- While BUSY a read of an address in the write set of the command in progress returns the next free byte, and
the read after it draws another (45_host_port.md R260; log 4). -/
def Obligations.BusyReadsOfTheWriteSetAreDraws : Prop :=
  ∀ (a : Byte) (s : State), s.phase = .busy → wholeByteUnspecified s.pendOp.toNat a.toNat →
    exec (.rd a) s = .next { s with rdata := some (Config.freeByte s.draws), draws := s.draws + 1 }

/-- While BUSY every other address but STATUS reads exactly: ERRCODE 0x00, the others their values, and nothing is
drawn (45_host_port.md R260). -/
def Obligations.BusyReadsOutsideTheWriteSetAreExact : Prop :=
  ∀ (a : Byte) (s : State), s.phase = .busy → ¬ wholeByteUnspecified s.pendOp.toNat a.toNat → a ≠ 0x01 →
    exec (.rd a) s =
      .next { s with rdata := some (if a = 0x02 then 0x00 else value (locate a) s) }

/-- While BUSY, in a state a run can reach (DONE = 0, ERRCODE = 0), STATUS reads bit 0 = 1, bits 1, 2 and 7:5 = 0.
SCHED_VALID is a bit of the next free byte while EXPAND or CLEAR_ALL is pending, and so is COLL while CLEAR_ALL is;
otherwise they read exactly. Such a read, and no other read of STATUS, draws (45_host_port.md R260; the counter of
draws is the model's form of ANY, log 4). -/
def Obligations.BusyStatusReadsAllButNamedBits : Prop :=
  ∀ s : State, s.phase = .busy → s.done = false → s.errcode = 0x00 →
    let drawn := Config.freeByte s.draws
    ∃ v,
      exec (.rd 0x01) s = .next { s with
        rdata := some v,
        draws := if s.pendOp = 0x01 ∨ s.pendOp = 0xF0 then s.draws + 1 else s.draws } ∧
      v[0] = true ∧ v[1] = false ∧ v[2] = false ∧ v[5] = false ∧ v[6] = false ∧ v[7] = false ∧
      v[3] = (if s.pendOp = 0x01 ∨ s.pendOp = 0xF0 then drawn[3] else s.schedValid) ∧
      v[4] = (if s.pendOp = 0xF0 then drawn[4] else s.coll)

/-- A write while BUSY, to any address, is dropped and sets COLL; nothing else changes. -/
def Obligations.WritesWhileBusyAreDropped : Prop :=
  ∀ (a v : Byte) (s : State), s.phase = .busy → exec (.wr a v) s = .next { s with coll := true }

/-- A write to CMD while idle accepts any opcode, and `irq` falls. -/
def Obligations.CommandWriteAccepts : Prop :=
  ∀ (v : Byte) (s : State), s.phase = .idle →
    ∃ t, exec (.wr 0x00 v) s = .next t ∧
      t = { s with phase := .busy, pendOp := v, uidx := 0, done := false, errcode := 0x00 } ∧
      irq t = false

/-- A write to STATUS while idle clears DONE and COLL where the byte has 1 in bits 1 and 4, and nothing else; with
bit 1 set `irq` is clear after it. -/
def Obligations.StatusWriteClearsDoneAndColl : Prop :=
  ∀ (v : Byte) (s : State), s.phase = .idle →
    ∃ t, exec (.wr 0x01 v) s = .next t ∧
      t = { s with done := if v[1] then false else s.done, coll := if v[4] then false else s.coll } ∧
      (v[1] = true → irq t = false)

/-- A write to CTRL while idle stores bit 0 in IE; CTRL[7:1] stay 0; with DONE = 1 the interrupt output follows at
once. -/
def Obligations.CtrlWriteStoresIe : Prop :=
  ∀ (v : Byte) (s : State), s.phase = .idle →
    ∃ t, exec (.wr 0x03 v) s = .next t ∧ t = { s with ie := v[0] } ∧
      ctrlByte t &&& 0xFE = 0x00 ∧ (s.done = true → v[0] = true → irq t = true)

/-- Writes to ARG0 and ARG1 while idle store every byte. -/
def Obligations.ArgWritesStoreEveryByte : Prop :=
  ∀ (v : Byte) (s : State), s.phase = .idle →
    exec (.wr 0x06 v) s = .next { s with arg0 := v } ∧
    exec (.wr 0x07 v) s = .next { s with arg1 := v }

/-- KEY_IN: byte KEY_CNT of KEY is written if KEY_CNT < 16, the count goes up and saturates at 255; from 16 on the
new count is not 16, and KEY is kept. -/
def Obligations.KeyInAppendsAndCounts : Prop :=
  ∀ (v : Byte) (s : State), s.phase = .idle →
    ∃ k : Block,
      exec (.wr 0x09 v) s =
        .next { s with key := k, keyCnt := if s.keyCnt.toNat < 255 then s.keyCnt + 1 else 255 } ∧
      (∀ i : Fin 16, k.get i = if i.val = s.keyCnt.toNat then v else s.key.get i) ∧
      (16 ≤ s.keyCnt.toNat → k = s.key ∧ (if s.keyCnt.toNat < 255 then s.keyCnt + 1 else 255) ≠ 16)

/-- BLK_IN: the same of STATE and BLK_CNT. -/
def Obligations.BlkInAppendsAndCounts : Prop :=
  ∀ (v : Byte) (s : State), s.phase = .idle →
    ∃ b : Block,
      exec (.wr 0x0A v) s =
        .next { s with blk := b, blkCnt := if s.blkCnt.toNat < 255 then s.blkCnt + 1 else 255 } ∧
      (∀ i : Fin 16, b.get i = if i.val = s.blkCnt.toNat then v else s.blk.get i) ∧
      (16 ≤ s.blkCnt.toNat → b = s.blk ∧ (if s.blkCnt.toNat < 255 then s.blkCnt + 1 else 255) ≠ 16)

/-- A write while idle to any other address, read-only or reserved, changes nothing (20_memory.md R73, R74). -/
def Obligations.OtherWritesAreIgnored : Prop :=
  ∀ (a v : Byte) (s : State), s.phase = .idle →
    a ≠ 0x00 → a ≠ 0x01 → a ≠ 0x03 → a ≠ 0x06 → a ≠ 0x07 → a ≠ 0x09 → a ≠ 0x0A →
    exec (.wr a v) s = .next s

/-! ## Commands -/

/-- GF_MUL puts the field product of ARG0 and ARG1 in RESULT and completes with OK, on all operands. -/
def Obligations.GfMulWritesTheProduct : Prop :=
  ∀ s : State, exec .gfMul s = .next (finished 0x00 { s with result := gmul s.arg0 s.arg1 })

/-- RCON: rounds 1..10 give the constants of the table, other values of ARG0 raise ILLEGAL_ARGUMENT with RESULT
unchanged. -/
def Obligations.RconWritesTheRoundConstant : Prop :=
  ∀ s : State,
    (∀ r : Fin 10, s.arg0.toNat = r.val + 1 →
      exec .rcon s = .next (finished 0x00 { s with
        result := (#v[0x01, 0x02, 0x04, 0x08, 0x10, 0x20, 0x40, 0x80, 0x1B, 0x36] : Vector Byte 10).get r })) ∧
    (s.arg0.toNat < 1 ∨ 10 < s.arg0.toNat → exec .rcon s = .next (finished 0x04 s))

/-- SBOX and INV_SBOX put the table entry of ARG0 in RESULT and complete with OK, on all bytes. -/
def Obligations.SboxCommandsLookUpArg0 : Prop :=
  ∀ s : State,
    exec .sbox s = .next (finished 0x00 { s with result := sbox s.arg0 }) ∧
    exec .invSbox s = .next (finished 0x00 { s with result := invSbox s.arg0 })

/-- EXPAND: with exactly 16 key bytes RK becomes the schedule of KEY and SCHED_VALID is set; otherwise
INVALID_KEY_LENGTH with RK and SCHED_VALID kept. -/
def Obligations.ExpandWritesTheSchedule : Prop :=
  ∀ s : State,
    (s.keyCnt = 16 →
      exec .expand s = .next (finished 0x00 { s with rk := expandKey s.key, schedValid := true })) ∧
    (s.keyCnt ≠ 16 → exec .expand s = .next (finished 0x01 s))

/-- The six block commands without a key: with exactly 16 block bytes STATE is transformed, and nothing else but
the completion fields changes. -/
def Obligations.BlockCommandsTransformState : Prop :=
  ∀ s : State, s.blkCnt = 16 →
    exec .subBytes s = .next (finished 0x00 { s with blk := subBytes s.blk }) ∧
    exec .invSubBytes s = .next (finished 0x00 { s with blk := invSubBytes s.blk }) ∧
    exec .shiftRows s = .next (finished 0x00 { s with blk := shiftRows s.blk }) ∧
    exec .invShiftRows s = .next (finished 0x00 { s with blk := invShiftRows s.blk }) ∧
    exec .mixColumns s = .next (finished 0x00 { s with blk := mixColumns s.blk }) ∧
    exec .invMixColumns s = .next (finished 0x00 { s with blk := invMixColumns s.blk })

/-- ADD_ROUND_KEY, with its checks in order: block, schedule, argument. -/
def Obligations.AddRoundKeyChecksThenXors : Prop :=
  ∀ s : State,
    (s.blkCnt ≠ 16 → exec .addRoundKey s = .next (finished 0x02 s)) ∧
    (s.blkCnt = 16 → s.schedValid = false → exec .addRoundKey s = .next (finished 0x01 s)) ∧
    (s.blkCnt = 16 → s.schedValid = true → 10 < s.arg0.toNat →
      exec .addRoundKey s = .next (finished 0x04 s)) ∧
    (∀ r : Fin 11, s.blkCnt = 16 → s.schedValid = true → s.arg0.toNat = r.val →
      exec .addRoundKey s = .next (finished 0x00 { s with blk := addRoundKey s.blk (s.rk.get r) }))

/-- ENCRYPT and DECRYPT, with their checks in order: block, schedule. -/
def Obligations.CipherCommandsCheckThenRun : Prop :=
  ∀ s : State,
    (s.blkCnt ≠ 16 →
      exec .encrypt s = .next (finished 0x02 s) ∧ exec .decrypt s = .next (finished 0x02 s)) ∧
    (s.blkCnt = 16 → s.schedValid = false →
      exec .encrypt s = .next (finished 0x01 s) ∧ exec .decrypt s = .next (finished 0x01 s)) ∧
    (s.blkCnt = 16 → s.schedValid = true →
      exec .encrypt s = .next (finished 0x00 { s with blk := encrypt s.blk s.rk }) ∧
      exec .decrypt s = .next (finished 0x00 { s with blk := decrypt s.blk s.rk }))

/-- NOP and the three clears: what each writes, from any state; CLEAR_ALL keeps CTRL, CLEAR_KEY keeps the
schedule. That CLEAR_ALL also keeps PEND_OP, the hidden opcode just run, is the model's reading and no rule's
sentence (log 8). -/
def Obligations.ControlCommandsComplete : Prop :=
  ∀ s : State,
    exec .nop s = .next (finished 0x00 s) ∧
    exec .clearAll s = .next (finished 0x00 { s with
      blk := Vector.replicate 16 0x00, key := Vector.replicate 16 0x00,
      rk := Vector.replicate 11 (Vector.replicate 16 0x00), keyCnt := 0x00, blkCnt := 0x00,
      arg0 := 0x00, arg1 := 0x00, result := 0x00, schedValid := false, coll := false }) ∧
    exec .clearKey s = .next (finished 0x00 { s with key := Vector.replicate 16 0x00, keyCnt := 0x00 }) ∧
    exec .clearBlk s = .next (finished 0x00 { s with blk := Vector.replicate 16 0x00, blkCnt := 0x00 })

/-- A reserved opcode, the core's turn come, completes with ILLEGAL_COMMAND and changes nothing but the completion
fields (and the turn used up). -/
def Obligations.ReservedOpcodeCompletesIllegal : Prop :=
  ∀ (s : State) (ts : List Turn), s.turns = .core :: ts → s.phase = .busy → s.pendOp ∉ definedOpcodes →
    step s = .next (finished 0x03 { s with turns := ts })

/-- The conditions each command checks, in order, and the first failure reported: the whole table of
60_exceptions.md R286. -/
def Obligations.ChecksAreInThePrescribedOrder : Prop :=
  ∀ s : State,
    let block (next : Option ErrCode) := if s.blkCnt = 16 then next else some ErrCode.invalidBlockLength
    let schedule (next : Option ErrCode) := if s.schedValid = true then next else some ErrCode.invalidKeyLength
    commandCheck .expand s = (if s.keyCnt = 16 then none else some .invalidKeyLength) ∧
    (∀ i ∈ [Instr.encrypt, .decrypt], commandCheck i s = block (schedule none)) ∧
    commandCheck .addRoundKey s =
      block (schedule (if s.arg0.toNat ≤ 10 then none else some .illegalArgument)) ∧
    (∀ i ∈ [Instr.subBytes, .invSubBytes, .shiftRows, .invShiftRows, .mixColumns, .invMixColumns],
      commandCheck i s = block none) ∧
    commandCheck .rcon s =
      (if 1 ≤ s.arg0.toNat ∧ s.arg0.toNat ≤ 10 then none else some .illegalArgument) ∧
    (∀ i ∈ [Instr.nop, .gfMul, .sbox, .invSbox, .clearAll, .clearKey, .clearBlk], commandCheck i s = none)

/-- No partial computation: a command that raises an error writes ERRCODE, DONE, BUSY and UIDX and nothing else. -/
def Obligations.FailedCommandsWriteNothingElse : Prop :=
  ∀ (i : Instr) (s : State) (e : ErrCode), commandCheck i s = some e →
    exec i s = .next (finished e.byte s)

/-- Once the checks pass a command cannot fail: it completes with OK, and touches neither CTRL nor the host's side
of the port, nor the pending opcode; that CLEAR_ALL too leaves the pending opcode is the model's reading (log
8). -/
def Obligations.CheckedCommandsCompleteWithOk : Prop :=
  ∀ (i : Instr) (s : State), i ∈ commands → commandCheck i s = none →
    ∃ t, exec i s = .next t ∧ t.errcode = 0x00 ∧ t.done = true ∧ t.phase = .idle ∧ t.uidx = 0 ∧
      t.ie = s.ie ∧ t.pendOp = s.pendOp ∧ t.rdata = s.rdata ∧ t.draws = s.draws ∧
      t.program = s.program ∧ t.turns = s.turns

/-! ## The units -/

/-- The multiplier's laws: identities, commutativity, associativity, distribution over XOR, and a unique inverse
for every nonzero byte. -/
def Obligations.MultiplicationIsAFieldProduct : Prop :=
  (∀ a, gmul a 0x01 = a) ∧ (∀ a, gmul a 0x00 = 0x00) ∧ (∀ b, gmul 0x00 b = 0x00) ∧
  (∀ a b, gmul a b = gmul b a) ∧
  (∀ a b c, gmul (gmul a b) c = gmul a (gmul b c)) ∧
  (∀ a b c, gmul a (b ^^^ c) = gmul a b ^^^ gmul a c) ∧
  (∀ a, a ≠ 0x00 → ∃ b, gmul a b = 0x01 ∧ ∀ c, gmul a c = 0x01 → c = b)

/-- Doubling is a left shift with 0x1B XORed in when bit 7 drops out; a round constant is repeated doubling of 1,
and the 10-entry table agrees with it on every round number. -/
def Obligations.DoublingMakesTheRoundConstants : Prop :=
  (∀ a : Byte, xtime a = gmul a 0x02 ∧ xtime a = (a <<< 1) ^^^ (if a[7] = true then 0x1B else 0x00)) ∧
  rcon 1 = 0x01 ∧ (∀ r : Nat, 1 ≤ r → rcon (r + 1) = xtime (rcon r)) ∧
  (∀ r : Nat, rconBy .doubling r = rconBy .table r)

/-- Bit-serial and table-driven multipliers give the same MixColumns and InvMixColumns on every block. -/
def Obligations.MultiplierImplementationsAgree : Prop :=
  (∀ impl a, ∀ c ∈ [2, 3, 9, 11, 13, 14], mulBy impl a (BitVec.ofNat 8 c) = gmul a (BitVec.ofNat 8 c)) ∧
  (∀ a, ∀ c ∈ [2, 3, 9, 11, 13, 14], networkMul a c = some (gmul a (BitVec.ofNat 8 c))) ∧
  (∀ impl s, mixColumnsBy impl s = mixColumns s ∧ invMixColumnsBy impl s = invMixColumns s)

/-- The two tables are inverse to each other, and the forward table has no fixed and no opposite fixed point. -/
def Obligations.SboxTablesAreInverse : Prop :=
  ∀ x : Byte, invSbox (sbox x) = x ∧ sbox (invSbox x) = x ∧ sbox x ≠ x ∧ sbox x ≠ x ^^^ 0xFF

/-- The forward table is the affine image of the field inverse, 0x00 standing for its own inverse. -/
def Obligations.SboxIsAffineOfInverse : Prop :=
  sbox 0x00 = affine 0x00 ∧
  ∀ x : Byte, x ≠ 0x00 →
    ∃ y, gmul x y = 0x01 ∧ (∀ z, gmul x z = 0x01 → z = y) ∧ sbox x = affine y

/-- One key step, byte by byte: word 0 from the rotated, substituted last word with the round constant in its first
byte, each later word from the new word before it. -/
def Obligations.KeyStepChainsItsWords : Prop :=
  ∀ (prev : Block) (r : Nat),
    (∀ j : Fin 4, (keyStep prev r).get (cell j 0) =
      prev.get (cell j 0) ^^^ sbox (prev.get (cell (j + 1) 3)) ^^^ (if j = 0 then rcon r else 0x00)) ∧
    (∀ (j : Fin 4) (w : Fin 4), w ≠ 0 → (keyStep prev r).get (cell j w) =
      prev.get (cell j w) ^^^ (keyStep prev r).get (cell j (w - 1)))

/-- The schedule: index 0 the key itself, each later entry one key step from the one before; and EXPAND's working
copy, to which each micro-step adds one round key computed from the last, is the whole schedule after 10. -/
def Obligations.ScheduleIsAFoldOfKeySteps : Prop :=
  ∀ key : Block,
    (expandKey key).get 0 = key ∧
    (∀ (r : Nat) (h : r < 10),
      (expandKey key).get ⟨r + 1, by omega⟩ = keyStep ((expandKey key).get ⟨r, by omega⟩) (r + 1)) ∧
    workingSchedule key 10 = (expandKey key).toList ∧
    (∀ u : Nat, ∃ last, (workingSchedule key u).getLast? = some last ∧
      workingSchedule key (u + 1) = workingSchedule key u ++ [keyStep last (u + 1)])

/-- SubBytes, InvSubBytes and AddRoundKey act on each byte alone: the table entry of the byte, and its XOR with
the byte of the round key at the same index. -/
def Obligations.SubstitutionAndKeyAdditionActBytewise : Prop :=
  ∀ (s k : Block) (i : Fin 16),
    (subBytes s).get i = sbox (s.get i) ∧
    (invSubBytes s).get i = invSbox (s.get i) ∧
    (addRoundKey s k).get i = s.get i ^^^ k.get i

/-- The row shifts as index maps (row `i`, destination column `j`), each undoing the other, four forward shifts
being the identity. -/
def Obligations.RowShiftsArePermutations : Prop :=
  ∀ s : Block,
    (∀ i j : Fin 4, (shiftRows s).get (cell i j) = s.get (cell i (j + i))) ∧
    (∀ i j : Fin 4, (invShiftRows s).get (cell i j) = s.get (cell i (j - i))) ∧
    invShiftRows (shiftRows s) = s ∧ shiftRows (invShiftRows s) = s ∧
    shiftRows (shiftRows (shiftRows (shiftRows s))) = s

/-- MixColumns and InvMixColumns, column by column, by the two matrices. -/
def Obligations.MixColumnsMultipliesByTheMatrix : Prop :=
  ∀ (s : Block) (c : Fin 4),
    let a0 := s.get (cell 0 c)
    let a1 := s.get (cell 1 c)
    let a2 := s.get (cell 2 c)
    let a3 := s.get (cell 3 c)
    (mixColumns s).get (cell 0 c) = gmul a0 2 ^^^ gmul a1 3 ^^^ a2 ^^^ a3 ∧
    (mixColumns s).get (cell 1 c) = a0 ^^^ gmul a1 2 ^^^ gmul a2 3 ^^^ a3 ∧
    (mixColumns s).get (cell 2 c) = a0 ^^^ a1 ^^^ gmul a2 2 ^^^ gmul a3 3 ∧
    (mixColumns s).get (cell 3 c) = gmul a0 3 ^^^ a1 ^^^ a2 ^^^ gmul a3 2 ∧
    (invMixColumns s).get (cell 0 c) = gmul a0 14 ^^^ gmul a1 11 ^^^ gmul a2 13 ^^^ gmul a3 9 ∧
    (invMixColumns s).get (cell 1 c) = gmul a0 9 ^^^ gmul a1 14 ^^^ gmul a2 11 ^^^ gmul a3 13 ∧
    (invMixColumns s).get (cell 2 c) = gmul a0 13 ^^^ gmul a1 9 ^^^ gmul a2 14 ^^^ gmul a3 11 ∧
    (invMixColumns s).get (cell 3 c) = gmul a0 11 ^^^ gmul a1 13 ^^^ gmul a2 9 ^^^ gmul a3 14

/-- The laws of the transforms: each inverse undoes its transform, SubBytes and ShiftRows commute, as do their
inverses, and MixColumns does not commute with AddRoundKey in general. -/
def Obligations.TransformsHaveTheirInverses : Prop :=
  (∀ s, invSubBytes (subBytes s) = s) ∧ (∀ s, invShiftRows (shiftRows s) = s) ∧
  (∀ s, invMixColumns (mixColumns s) = s) ∧ (∀ s k, addRoundKey (addRoundKey s k) k = s) ∧
  (∀ s, subBytes (shiftRows s) = shiftRows (subBytes s)) ∧
  (∀ s, invSubBytes (invShiftRows s) = invShiftRows (invSubBytes s)) ∧
  (∃ s k, mixColumns (addRoundKey s k) ≠ addRoundKey (mixColumns s) k)

/-- Round trip: decryption undoes encryption and encryption undoes decryption under any schedule, and so do the
commands on a full STATE with a valid schedule. -/
def Obligations.EncryptionRoundTrip : Prop :=
  (∀ (b : Block) (rk : Schedule), decrypt (encrypt b rk) rk = b ∧ encrypt (decrypt b rk) rk = b) ∧
  (∀ s : State, s.blkCnt = 16 → s.schedValid = true →
    (∃ t u, exec .encrypt s = .next t ∧ exec .decrypt t = .next u ∧ u.blk = s.blk) ∧
    (∃ t u, exec .decrypt s = .next t ∧ exec .encrypt t = .next u ∧ u.blk = s.blk))

/-- The micro-sequences, UIDX by UIDX, and what running all 40 of each gives. -/
def Obligations.MicroSequencesRunTheEnvelopes : Prop :=
  (∀ (rk : Schedule) (w : Block),
    workingBlock rk w encryptSequence 40 = encrypt w rk ∧
    workingBlock rk w decryptSequence 40 = decrypt w rk) ∧
  encryptSequence.length = 40 ∧ decryptSequence.length = 40 ∧
  opsAt encryptSequence 0 [.addRoundKey 0] ∧
  (∀ r : Fin 9, opsAt encryptSequence (4 * r.val + 1)
    [.subBytes, .shiftRows, .mixColumns, .addRoundKey ⟨r.val + 1, by omega⟩]) ∧
  opsAt encryptSequence 37 [.subBytes, .shiftRows, .addRoundKey 10] ∧
  opsAt decryptSequence 0 [.addRoundKey 10] ∧
  (∀ k : Fin 9, opsAt decryptSequence (4 * k.val + 1)
    [.invShiftRows, .invSubBytes, .addRoundKey ⟨9 - k.val, by omega⟩, .invMixColumns]) ∧
  opsAt decryptSequence 37 [.invShiftRows, .invSubBytes, .addRoundKey 0]

/-! ## Flags and the interrupt -/

/-- STATUS, bit by bit; bits 7:5 read as 0; ERR is 1 exactly when ERRCODE is not 0; in every state `irq` is
DONE and IE, a level, and it falls at every acceptance. -/
def Obligations.StatusBitsAreTheFields : Prop :=
  ∀ s : State,
    (statusByte s)[0] = decide (s.phase = .busy) ∧ (statusByte s)[1] = s.done ∧
    (statusByte s)[2] = decide (s.errcode ≠ 0x00) ∧ (statusByte s)[3] = s.schedValid ∧
    (statusByte s)[4] = s.coll ∧ (statusByte s)[5] = false ∧ (statusByte s)[6] = false ∧
    (statusByte s)[7] = false ∧
    irq s = (s.done && s.ie) ∧
    (∀ v, s.phase = .idle → ∃ t, exec (.wr 0x00 v) s = .next t ∧ irq t = false)

/-- Every completion, successful or not, leaves the core idle with DONE = 1 and no micro-steps, and raises `irq`
exactly if IE = 1. -/
def Obligations.EveryCompletionSetsDoneAndIrq : Prop :=
  ∀ (s : State) (ts : List Turn), s.turns = .core :: ts → s.phase = .busy →
    (∀ a v, decode (.command s.pendOp) ≠ .ok (.rd a) ∧ decode (.command s.pendOp) ≠ .ok (.wr a v)) ∧
    ∃ t, step s = .next t ∧ t.phase = .idle ∧ t.done = true ∧ t.uidx = 0 ∧ t.ie = s.ie ∧ irq t = s.ie

/-! ## Whole-machine rules -/

/-- While a command is in progress, whatever moves but its completion or a reset changes no register but COLL: the
operands at completion are those at acceptance. -/
def Obligations.OperandsAreHeldWhileBusy : Prop :=
  ∀ s t : State, s.phase = .busy → (nextTurn s = .host ∨ nextTurn s = .micro) → step s = .next t →
    sameRegistersButColl s t ∧ (s.coll = true → t.coll = true)

/-- RK and SCHED_VALID change only at the completion of EXPAND or CLEAR_ALL and at reset. -/
def Obligations.OnlyExpandClearAllAndResetChangeTheSchedule : Prop :=
  ∀ s t : State, step s = .next t → (t.rk ≠ s.rk ∨ t.schedValid ≠ s.schedValid) →
    (nextTurn s = .core ∧ s.phase = .busy ∧ (s.pendOp = 0x01 ∨ s.pendOp = 0xF0)) ∨
    ∃ b, nextTurn s = .rst b

/-- KEY and KEY_CNT change only by a write to KEY_IN while idle, at the completion of CLEAR_KEY or CLEAR_ALL, and at
reset. -/
def Obligations.OnlyKeyInClearsAndResetChangeTheKey : Prop :=
  ∀ s t : State, step s = .next t → (t.key ≠ s.key ∨ t.keyCnt ≠ s.keyCnt) →
    (nextTurn s = .host ∧ s.phase = .idle ∧
      ∃ w rest v, s.program = .word w :: rest ∧ decodeTransaction w = .wr 0x09 v) ∨
    (nextTurn s = .core ∧ s.phase = .busy ∧ (s.pendOp = 0xF1 ∨ s.pendOp = 0xF0)) ∨
    ∃ b, nextTurn s = .rst b

/-- The core leaves IDLE only by the host's write to CMD, and the byte written is the pending opcode. -/
def Obligations.OnlyACommandWriteStartsACommand : Prop :=
  ∀ s t : State, step s = .next t → s.phase = .idle → t.phase = .busy →
    nextTurn s = .host ∧
    ∃ w rest v, s.program = .word w :: rest ∧ decodeTransaction w = .wr 0x00 v ∧ t.pendOp = v

/-- COLL, once set, is cleared only by a write of STATUS with bit 4 = 1 while idle, by CLEAR_ALL, and by reset. -/
def Obligations.CollIsSticky : Prop :=
  ∀ s t : State, step s = .next t → s.coll = true → t.coll = false →
    (nextTurn s = .host ∧ s.phase = .idle ∧
      ∃ w rest v, s.program = .word w :: rest ∧ decodeTransaction w = .wr 0x01 v ∧ v[4] = true) ∨
    (nextTurn s = .core ∧ s.phase = .busy ∧ s.pendOp = 0xF0) ∨
    ∃ b, nextTurn s = .rst b

/-- A command in progress comes to its end: within as many steps as there are turns, and one more, the core is
idle, and with no reset among the turns the command has completed. The bound rests on the model's list of turns and
on its choice for used-up turns (logs 1, 2). -/
def Obligations.CommandsComeToAnEnd : Prop :=
  ∀ s : State, s.phase = .busy →
    ∃ (k : Nat) (t : State), k ≤ s.turns.length + 1 ∧ Host.Core.run Sys2Proof.core k s = .next t ∧ t.phase = .idle ∧
      ((∀ b, Turn.rst b ∉ s.turns) → t.done = true)

/-- The turns of a command's cycles: the accepting host turn, one host turn for each of the cycles 1..LAT that has a
transaction on the bus, and the completion, LAT being at least 1. Along them, from an idle state whose host sends a
write of `op` to CMD, the transaction of each such cycle is judged while BUSY with `op` pending, the one of the
completing cycle too, and the last turn completes the command. LAT is Config.lat and the order within a cycle is
the model's list of turns (logs 1, 10). -/
def Obligations.CycleTurnsEndInTheCompletion : Prop :=
  ∀ (op : Byte) (drives : Nat → Bool),
    let lat := Config.lat op
    1 ≤ lat ∧
    commandTurns op drives = .host :: List.replicate (drivenCycles drives lat) .host ++ [.core] ∧
    ∀ (s : State) (w : BitVec 17) (rest : List HostItem) (ts : List Turn),
      s.phase = .idle → s.turns = commandTurns op drives ++ ts → s.program = .word w :: rest →
      decodeTransaction w = .wr 0x00 op →
      (∀ k, 1 ≤ k → k ≤ lat → drives k = true →
        ∃ t : State, Host.Core.run Sys2Proof.core (1 + drivenCycles drives (k - 1)) s = .next t ∧
          nextTurn t = .host ∧ t.phase = .busy ∧ t.pendOp = op) ∧
      (∃ t u : State, Host.Core.run Sys2Proof.core (1 + drivenCycles drives lat) s = .next t ∧
        nextTurn t = .core ∧ t.phase = .busy ∧ t.pendOp = op ∧
        step t = .next u ∧ u.phase = .idle ∧ u.done = true ∧ u.turns = ts)

/-! ## Reset and the invariant -/

/-- After reset every piece of the spec's state is at its reset value, so `irq` = 0. -/
def Obligations.ResetLeavesTheStatedValues : Prop :=
  (∀ i : Fin 16, State.reset.blk.get i = 0x00 ∧ State.reset.key.get i = 0x00) ∧
  (∀ (r : Fin 11) (i : Fin 16), (State.reset.rk.get r).get i = 0x00) ∧
  State.reset.keyCnt = 0x00 ∧ State.reset.blkCnt = 0x00 ∧
  State.reset.arg0 = 0x00 ∧ State.reset.arg1 = 0x00 ∧ State.reset.result = 0x00 ∧
  statusByte State.reset = 0x00 ∧ State.reset.errcode = 0x00 ∧ ctrlByte State.reset = 0x00 ∧
  irq State.reset = false ∧
  State.reset.phase = .idle ∧ State.reset.pendOp = 0x00 ∧ State.reset.uidx = 0

/-- An edge with rst = 1 puts every piece of the spec's state at its reset value, in any state, a command in
progress being abandoned. A host write in that cycle has no effect, and a host read returns a free byte
(70_reset_and_hazards.md R310; the form of the draw is log 4's). That the host's transaction is used up, and `poll`
repeated if the byte it drew has bit 0 set, is the model's choice for the host's side (log 15). -/
def Obligations.ResetTurnAbandonsEverything : Prop :=
  ∀ (s : State) (b : Bool) (ts : List Turn), s.turns = .rst b :: ts →
    let leaves (r : Option Byte) (d : Nat) (p : List HostItem) : Prop :=
      step s = .next { State.reset with rdata := r, draws := d, program := p, turns := ts }
    let drawn := Config.freeByte s.draws
    (b = false ∨ s.program = [] → leaves s.rdata s.draws s.program) ∧
    (∀ w rest, b = true → s.program = .word w :: rest →
      (∀ a v, decodeTransaction w = .wr a v → leaves s.rdata s.draws rest) ∧
      (∀ a, decodeTransaction w = .rd a → leaves (some drawn) (s.draws + 1) rest)) ∧
    (∀ rest, b = true → s.program = .poll :: rest →
      leaves (some drawn) (s.draws + 1) (if drawn[0] = true then .poll :: rest else rest))

/-- The invariant holds after reset. -/
def Obligations.InvariantHoldsAtReset : Prop := Inv State.reset

/-- Every step of every agent keeps the invariant: ERRCODE is one of the five codes, the sequencer is in order, a
valid RK is the expansion of a key and an invalid one is zero, and the buffers are zero beyond their counts. -/
def Obligations.EveryStepKeepsTheInvariant : Prop :=
  ∀ s t : State, Inv s → step s = .next t → Inv t
end

