-- ==== Sys2Proof/Laws/Bytes.lean ====
section
/-! SUPPORT. The byte-level building blocks: a block is known by its bytes. -/

namespace Sys2Proof.Machine

@[simp] theorem tabulate_get (f : Fin 16 → Byte) (i : Fin 16) : (tabulate f).get i = f i := by
  fin_cases i <;> rfl

theorem block_ext {x y : Block} (h : ∀ i : Fin 16, x.get i = y.get i) : x = y := by
  apply Vector.ext
  intro i hi
  exact h ⟨i, hi⟩

theorem tabulate_eq_self (s : Block) : tabulate (fun i => s.get i) = s :=
  block_ext fun i => tabulate_get _ i

@[simp] theorem rowOf_cell (r c : Fin 4) : rowOf (cell r c) = r := by
  simp only [rowOf, cell, Fin.ext_iff]; omega

@[simp] theorem colOf_cell (r c : Fin 4) : colOf (cell r c) = c := by
  simp only [colOf, cell, Fin.ext_iff]; omega

@[simp] theorem cell_rowOf_colOf (i : Fin 16) : cell (rowOf i) (colOf i) = i := by
  simp only [rowOf, colOf, cell, Fin.ext_iff]; omega

@[simp] theorem zeroBlock_get (i : Fin 16) : zeroBlock.get i = 0x00 := by
  fin_cases i <;> rfl

/-- Every byte of a buffer after a byte is stored: the byte of index `cnt` is the new one, if there is one. -/
theorem storeAt_get (b : Block) (cnt v : Byte) (i : Fin 16) :
    (storeAt b cnt v).get i = if i.val = cnt.toNat then v else b.get i := by
  unfold storeAt
  split
  · rename_i h
    simp only [Vector.get_eq_getElem, Vector.getElem_set, eq_comm]
  · rename_i h
    rw [if_neg (by omega)]

theorem bumpCount_toNat (cnt : Byte) : (bumpCount cnt).toNat = min (cnt.toNat + 1) 255 := by
  unfold bumpCount
  split
  · rw [BitVec.toNat_add]; simp; omega
  · have := cnt.isLt; simp; omega

end Sys2Proof.Machine
end

