-- ==== Sys2Proof/Laws/Decode.lean ====
section
/-! SUPPORT. The fields of a transaction word, and when a command byte decodes. -/

namespace Sys2Proof

@[simp] theorem transactionWord_we (we : Bool) (a d : Byte) : (transactionWord we a d)[16] = we := by
  rw [← BitVec.getLsbD_eq_getElem (by omega)]
  rw [transactionWord, BitVec.getLsbD_append, BitVec.getLsbD_append]
  simp

@[simp] theorem transactionWord_addr (we : Bool) (a d : Byte) :
    (transactionWord we a d).extractLsb' 8 8 = a := by
  ext i hi
  simp only [transactionWord, BitVec.getElem_extractLsb', BitVec.getLsbD_append]
  simp [show 8 + i - 8 = i by omega, hi]

@[simp] theorem transactionWord_data (we : Bool) (a d : Byte) :
    (transactionWord we a d).extractLsb' 0 8 = d := by
  ext i hi
  simp only [transactionWord, BitVec.getElem_extractLsb', BitVec.getLsbD_append]
  simp [hi]

/-- The rows of the opcode map are found by their opcodes. -/
theorem decodeCommand_mem {op : Byte} {i : Instr} (h : decodeCommand op = .ok i) :
    (op, i) ∈ opcodeMap := by
  unfold decodeCommand at h
  split at h
  · rename_i j hj
    cases h
    exact List.lookup_eq_some_iff.mp hj |>.elim fun _ ⟨_, hl, _⟩ => by simp [hl]
  · cases h

end Sys2Proof
end

