-- ==== Sys2Proof/Laws/State.lean ====
section
/-! SUPPORT. For every named update of State, what each field is after it. -/

namespace Sys2Proof.Machine

@[simp] theorem complete_blk (code : ErrCode) (s : State) : (complete code s).blk = s.blk := rfl
@[simp] theorem complete_key (code : ErrCode) (s : State) : (complete code s).key = s.key := rfl
@[simp] theorem complete_rk (code : ErrCode) (s : State) : (complete code s).rk = s.rk := rfl
@[simp] theorem complete_keyCnt (code : ErrCode) (s : State) : (complete code s).keyCnt = s.keyCnt := rfl
@[simp] theorem complete_blkCnt (code : ErrCode) (s : State) : (complete code s).blkCnt = s.blkCnt := rfl
@[simp] theorem complete_arg0 (code : ErrCode) (s : State) : (complete code s).arg0 = s.arg0 := rfl
@[simp] theorem complete_arg1 (code : ErrCode) (s : State) : (complete code s).arg1 = s.arg1 := rfl
@[simp] theorem complete_result (code : ErrCode) (s : State) : (complete code s).result = s.result := rfl
@[simp] theorem complete_done (code : ErrCode) (s : State) : (complete code s).done = true := rfl
@[simp] theorem complete_schedValid (code : ErrCode) (s : State) : (complete code s).schedValid = s.schedValid := rfl
@[simp] theorem complete_coll (code : ErrCode) (s : State) : (complete code s).coll = s.coll := rfl
@[simp] theorem complete_errcode (code : ErrCode) (s : State) : (complete code s).errcode = code.byte := rfl
@[simp] theorem complete_ie (code : ErrCode) (s : State) : (complete code s).ie = s.ie := rfl
@[simp] theorem complete_phase (code : ErrCode) (s : State) : (complete code s).phase = .idle := rfl
@[simp] theorem complete_pendOp (code : ErrCode) (s : State) : (complete code s).pendOp = s.pendOp := rfl
@[simp] theorem complete_uidx (code : ErrCode) (s : State) : (complete code s).uidx = 0 := rfl
@[simp] theorem complete_rdata (code : ErrCode) (s : State) : (complete code s).rdata = s.rdata := rfl
@[simp] theorem complete_draws (code : ErrCode) (s : State) : (complete code s).draws = s.draws := rfl
@[simp] theorem complete_program (code : ErrCode) (s : State) : (complete code s).program = s.program := rfl
@[simp] theorem complete_turns (code : ErrCode) (s : State) : (complete code s).turns = s.turns := rfl

@[simp] theorem raise_blk (e : ErrCode) (s : State) : (raise e s).blk = s.blk := rfl
@[simp] theorem raise_key (e : ErrCode) (s : State) : (raise e s).key = s.key := rfl
@[simp] theorem raise_rk (e : ErrCode) (s : State) : (raise e s).rk = s.rk := rfl
@[simp] theorem raise_keyCnt (e : ErrCode) (s : State) : (raise e s).keyCnt = s.keyCnt := rfl
@[simp] theorem raise_blkCnt (e : ErrCode) (s : State) : (raise e s).blkCnt = s.blkCnt := rfl
@[simp] theorem raise_arg0 (e : ErrCode) (s : State) : (raise e s).arg0 = s.arg0 := rfl
@[simp] theorem raise_arg1 (e : ErrCode) (s : State) : (raise e s).arg1 = s.arg1 := rfl
@[simp] theorem raise_result (e : ErrCode) (s : State) : (raise e s).result = s.result := rfl
@[simp] theorem raise_done (e : ErrCode) (s : State) : (raise e s).done = true := rfl
@[simp] theorem raise_schedValid (e : ErrCode) (s : State) : (raise e s).schedValid = s.schedValid := rfl
@[simp] theorem raise_coll (e : ErrCode) (s : State) : (raise e s).coll = s.coll := rfl
@[simp] theorem raise_errcode (e : ErrCode) (s : State) : (raise e s).errcode = e.byte := rfl
@[simp] theorem raise_ie (e : ErrCode) (s : State) : (raise e s).ie = s.ie := rfl
@[simp] theorem raise_phase (e : ErrCode) (s : State) : (raise e s).phase = .idle := rfl
@[simp] theorem raise_pendOp (e : ErrCode) (s : State) : (raise e s).pendOp = s.pendOp := rfl
@[simp] theorem raise_uidx (e : ErrCode) (s : State) : (raise e s).uidx = 0 := rfl
@[simp] theorem raise_rdata (e : ErrCode) (s : State) : (raise e s).rdata = s.rdata := rfl
@[simp] theorem raise_draws (e : ErrCode) (s : State) : (raise e s).draws = s.draws := rfl
@[simp] theorem raise_program (e : ErrCode) (s : State) : (raise e s).program = s.program := rfl
@[simp] theorem raise_turns (e : ErrCode) (s : State) : (raise e s).turns = s.turns := rfl

@[simp] theorem accept_blk (v : Byte) (s : State) : (accept v s).blk = s.blk := rfl
@[simp] theorem accept_key (v : Byte) (s : State) : (accept v s).key = s.key := rfl
@[simp] theorem accept_rk (v : Byte) (s : State) : (accept v s).rk = s.rk := rfl
@[simp] theorem accept_keyCnt (v : Byte) (s : State) : (accept v s).keyCnt = s.keyCnt := rfl
@[simp] theorem accept_blkCnt (v : Byte) (s : State) : (accept v s).blkCnt = s.blkCnt := rfl
@[simp] theorem accept_arg0 (v : Byte) (s : State) : (accept v s).arg0 = s.arg0 := rfl
@[simp] theorem accept_arg1 (v : Byte) (s : State) : (accept v s).arg1 = s.arg1 := rfl
@[simp] theorem accept_result (v : Byte) (s : State) : (accept v s).result = s.result := rfl
@[simp] theorem accept_done (v : Byte) (s : State) : (accept v s).done = false := rfl
@[simp] theorem accept_schedValid (v : Byte) (s : State) : (accept v s).schedValid = s.schedValid := rfl
@[simp] theorem accept_coll (v : Byte) (s : State) : (accept v s).coll = s.coll := rfl
@[simp] theorem accept_errcode (v : Byte) (s : State) : (accept v s).errcode = 0x00 := rfl
@[simp] theorem accept_ie (v : Byte) (s : State) : (accept v s).ie = s.ie := rfl
@[simp] theorem accept_phase (v : Byte) (s : State) : (accept v s).phase = .busy := rfl
@[simp] theorem accept_pendOp (v : Byte) (s : State) : (accept v s).pendOp = v := rfl
@[simp] theorem accept_uidx (v : Byte) (s : State) : (accept v s).uidx = 0 := rfl
@[simp] theorem accept_rdata (v : Byte) (s : State) : (accept v s).rdata = s.rdata := rfl
@[simp] theorem accept_draws (v : Byte) (s : State) : (accept v s).draws = s.draws := rfl
@[simp] theorem accept_program (v : Byte) (s : State) : (accept v s).program = s.program := rfl
@[simp] theorem accept_turns (v : Byte) (s : State) : (accept v s).turns = s.turns := rfl

@[simp] theorem dropWrite_blk (s : State) : (dropWrite s).blk = s.blk := rfl
@[simp] theorem dropWrite_key (s : State) : (dropWrite s).key = s.key := rfl
@[simp] theorem dropWrite_rk (s : State) : (dropWrite s).rk = s.rk := rfl
@[simp] theorem dropWrite_keyCnt (s : State) : (dropWrite s).keyCnt = s.keyCnt := rfl
@[simp] theorem dropWrite_blkCnt (s : State) : (dropWrite s).blkCnt = s.blkCnt := rfl
@[simp] theorem dropWrite_arg0 (s : State) : (dropWrite s).arg0 = s.arg0 := rfl
@[simp] theorem dropWrite_arg1 (s : State) : (dropWrite s).arg1 = s.arg1 := rfl
@[simp] theorem dropWrite_result (s : State) : (dropWrite s).result = s.result := rfl
@[simp] theorem dropWrite_done (s : State) : (dropWrite s).done = s.done := rfl
@[simp] theorem dropWrite_schedValid (s : State) : (dropWrite s).schedValid = s.schedValid := rfl
@[simp] theorem dropWrite_coll (s : State) : (dropWrite s).coll = true := rfl
@[simp] theorem dropWrite_errcode (s : State) : (dropWrite s).errcode = s.errcode := rfl
@[simp] theorem dropWrite_ie (s : State) : (dropWrite s).ie = s.ie := rfl
@[simp] theorem dropWrite_phase (s : State) : (dropWrite s).phase = s.phase := rfl
@[simp] theorem dropWrite_pendOp (s : State) : (dropWrite s).pendOp = s.pendOp := rfl
@[simp] theorem dropWrite_uidx (s : State) : (dropWrite s).uidx = s.uidx := rfl
@[simp] theorem dropWrite_rdata (s : State) : (dropWrite s).rdata = s.rdata := rfl
@[simp] theorem dropWrite_draws (s : State) : (dropWrite s).draws = s.draws := rfl
@[simp] theorem dropWrite_program (s : State) : (dropWrite s).program = s.program := rfl
@[simp] theorem dropWrite_turns (s : State) : (dropWrite s).turns = s.turns := rfl

@[simp] theorem keyIn_blk (v : Byte) (s : State) : (keyIn v s).blk = s.blk := rfl
@[simp] theorem keyIn_key (v : Byte) (s : State) : (keyIn v s).key = storeAt s.key s.keyCnt v := rfl
@[simp] theorem keyIn_rk (v : Byte) (s : State) : (keyIn v s).rk = s.rk := rfl
@[simp] theorem keyIn_keyCnt (v : Byte) (s : State) : (keyIn v s).keyCnt = bumpCount s.keyCnt := rfl
@[simp] theorem keyIn_blkCnt (v : Byte) (s : State) : (keyIn v s).blkCnt = s.blkCnt := rfl
@[simp] theorem keyIn_arg0 (v : Byte) (s : State) : (keyIn v s).arg0 = s.arg0 := rfl
@[simp] theorem keyIn_arg1 (v : Byte) (s : State) : (keyIn v s).arg1 = s.arg1 := rfl
@[simp] theorem keyIn_result (v : Byte) (s : State) : (keyIn v s).result = s.result := rfl
@[simp] theorem keyIn_done (v : Byte) (s : State) : (keyIn v s).done = s.done := rfl
@[simp] theorem keyIn_schedValid (v : Byte) (s : State) : (keyIn v s).schedValid = s.schedValid := rfl
@[simp] theorem keyIn_coll (v : Byte) (s : State) : (keyIn v s).coll = s.coll := rfl
@[simp] theorem keyIn_errcode (v : Byte) (s : State) : (keyIn v s).errcode = s.errcode := rfl
@[simp] theorem keyIn_ie (v : Byte) (s : State) : (keyIn v s).ie = s.ie := rfl
@[simp] theorem keyIn_phase (v : Byte) (s : State) : (keyIn v s).phase = s.phase := rfl
@[simp] theorem keyIn_pendOp (v : Byte) (s : State) : (keyIn v s).pendOp = s.pendOp := rfl
@[simp] theorem keyIn_uidx (v : Byte) (s : State) : (keyIn v s).uidx = s.uidx := rfl
@[simp] theorem keyIn_rdata (v : Byte) (s : State) : (keyIn v s).rdata = s.rdata := rfl
@[simp] theorem keyIn_draws (v : Byte) (s : State) : (keyIn v s).draws = s.draws := rfl
@[simp] theorem keyIn_program (v : Byte) (s : State) : (keyIn v s).program = s.program := rfl
@[simp] theorem keyIn_turns (v : Byte) (s : State) : (keyIn v s).turns = s.turns := rfl

@[simp] theorem blkIn_blk (v : Byte) (s : State) : (blkIn v s).blk = storeAt s.blk s.blkCnt v := rfl
@[simp] theorem blkIn_key (v : Byte) (s : State) : (blkIn v s).key = s.key := rfl
@[simp] theorem blkIn_rk (v : Byte) (s : State) : (blkIn v s).rk = s.rk := rfl
@[simp] theorem blkIn_keyCnt (v : Byte) (s : State) : (blkIn v s).keyCnt = s.keyCnt := rfl
@[simp] theorem blkIn_blkCnt (v : Byte) (s : State) : (blkIn v s).blkCnt = bumpCount s.blkCnt := rfl
@[simp] theorem blkIn_arg0 (v : Byte) (s : State) : (blkIn v s).arg0 = s.arg0 := rfl
@[simp] theorem blkIn_arg1 (v : Byte) (s : State) : (blkIn v s).arg1 = s.arg1 := rfl
@[simp] theorem blkIn_result (v : Byte) (s : State) : (blkIn v s).result = s.result := rfl
@[simp] theorem blkIn_done (v : Byte) (s : State) : (blkIn v s).done = s.done := rfl
@[simp] theorem blkIn_schedValid (v : Byte) (s : State) : (blkIn v s).schedValid = s.schedValid := rfl
@[simp] theorem blkIn_coll (v : Byte) (s : State) : (blkIn v s).coll = s.coll := rfl
@[simp] theorem blkIn_errcode (v : Byte) (s : State) : (blkIn v s).errcode = s.errcode := rfl
@[simp] theorem blkIn_ie (v : Byte) (s : State) : (blkIn v s).ie = s.ie := rfl
@[simp] theorem blkIn_phase (v : Byte) (s : State) : (blkIn v s).phase = s.phase := rfl
@[simp] theorem blkIn_pendOp (v : Byte) (s : State) : (blkIn v s).pendOp = s.pendOp := rfl
@[simp] theorem blkIn_uidx (v : Byte) (s : State) : (blkIn v s).uidx = s.uidx := rfl
@[simp] theorem blkIn_rdata (v : Byte) (s : State) : (blkIn v s).rdata = s.rdata := rfl
@[simp] theorem blkIn_draws (v : Byte) (s : State) : (blkIn v s).draws = s.draws := rfl
@[simp] theorem blkIn_program (v : Byte) (s : State) : (blkIn v s).program = s.program := rfl
@[simp] theorem blkIn_turns (v : Byte) (s : State) : (blkIn v s).turns = s.turns := rfl

@[simp] theorem statusWrite_blk (v : Byte) (s : State) : (statusWrite v s).blk = s.blk := rfl
@[simp] theorem statusWrite_key (v : Byte) (s : State) : (statusWrite v s).key = s.key := rfl
@[simp] theorem statusWrite_rk (v : Byte) (s : State) : (statusWrite v s).rk = s.rk := rfl
@[simp] theorem statusWrite_keyCnt (v : Byte) (s : State) : (statusWrite v s).keyCnt = s.keyCnt := rfl
@[simp] theorem statusWrite_blkCnt (v : Byte) (s : State) : (statusWrite v s).blkCnt = s.blkCnt := rfl
@[simp] theorem statusWrite_arg0 (v : Byte) (s : State) : (statusWrite v s).arg0 = s.arg0 := rfl
@[simp] theorem statusWrite_arg1 (v : Byte) (s : State) : (statusWrite v s).arg1 = s.arg1 := rfl
@[simp] theorem statusWrite_result (v : Byte) (s : State) : (statusWrite v s).result = s.result := rfl
@[simp] theorem statusWrite_done (v : Byte) (s : State) : (statusWrite v s).done = (s.done && !v[1]) := rfl
@[simp] theorem statusWrite_schedValid (v : Byte) (s : State) : (statusWrite v s).schedValid = s.schedValid := rfl
@[simp] theorem statusWrite_coll (v : Byte) (s : State) : (statusWrite v s).coll = (s.coll && !v[4]) := rfl
@[simp] theorem statusWrite_errcode (v : Byte) (s : State) : (statusWrite v s).errcode = s.errcode := rfl
@[simp] theorem statusWrite_ie (v : Byte) (s : State) : (statusWrite v s).ie = s.ie := rfl
@[simp] theorem statusWrite_phase (v : Byte) (s : State) : (statusWrite v s).phase = s.phase := rfl
@[simp] theorem statusWrite_pendOp (v : Byte) (s : State) : (statusWrite v s).pendOp = s.pendOp := rfl
@[simp] theorem statusWrite_uidx (v : Byte) (s : State) : (statusWrite v s).uidx = s.uidx := rfl
@[simp] theorem statusWrite_rdata (v : Byte) (s : State) : (statusWrite v s).rdata = s.rdata := rfl
@[simp] theorem statusWrite_draws (v : Byte) (s : State) : (statusWrite v s).draws = s.draws := rfl
@[simp] theorem statusWrite_program (v : Byte) (s : State) : (statusWrite v s).program = s.program := rfl
@[simp] theorem statusWrite_turns (v : Byte) (s : State) : (statusWrite v s).turns = s.turns := rfl

@[simp] theorem ctrlWrite_blk (v : Byte) (s : State) : (ctrlWrite v s).blk = s.blk := rfl
@[simp] theorem ctrlWrite_key (v : Byte) (s : State) : (ctrlWrite v s).key = s.key := rfl
@[simp] theorem ctrlWrite_rk (v : Byte) (s : State) : (ctrlWrite v s).rk = s.rk := rfl
@[simp] theorem ctrlWrite_keyCnt (v : Byte) (s : State) : (ctrlWrite v s).keyCnt = s.keyCnt := rfl
@[simp] theorem ctrlWrite_blkCnt (v : Byte) (s : State) : (ctrlWrite v s).blkCnt = s.blkCnt := rfl
@[simp] theorem ctrlWrite_arg0 (v : Byte) (s : State) : (ctrlWrite v s).arg0 = s.arg0 := rfl
@[simp] theorem ctrlWrite_arg1 (v : Byte) (s : State) : (ctrlWrite v s).arg1 = s.arg1 := rfl
@[simp] theorem ctrlWrite_result (v : Byte) (s : State) : (ctrlWrite v s).result = s.result := rfl
@[simp] theorem ctrlWrite_done (v : Byte) (s : State) : (ctrlWrite v s).done = s.done := rfl
@[simp] theorem ctrlWrite_schedValid (v : Byte) (s : State) : (ctrlWrite v s).schedValid = s.schedValid := rfl
@[simp] theorem ctrlWrite_coll (v : Byte) (s : State) : (ctrlWrite v s).coll = s.coll := rfl
@[simp] theorem ctrlWrite_errcode (v : Byte) (s : State) : (ctrlWrite v s).errcode = s.errcode := rfl
@[simp] theorem ctrlWrite_ie (v : Byte) (s : State) : (ctrlWrite v s).ie = v[0] := rfl
@[simp] theorem ctrlWrite_phase (v : Byte) (s : State) : (ctrlWrite v s).phase = s.phase := rfl
@[simp] theorem ctrlWrite_pendOp (v : Byte) (s : State) : (ctrlWrite v s).pendOp = s.pendOp := rfl
@[simp] theorem ctrlWrite_uidx (v : Byte) (s : State) : (ctrlWrite v s).uidx = s.uidx := rfl
@[simp] theorem ctrlWrite_rdata (v : Byte) (s : State) : (ctrlWrite v s).rdata = s.rdata := rfl
@[simp] theorem ctrlWrite_draws (v : Byte) (s : State) : (ctrlWrite v s).draws = s.draws := rfl
@[simp] theorem ctrlWrite_program (v : Byte) (s : State) : (ctrlWrite v s).program = s.program := rfl
@[simp] theorem ctrlWrite_turns (v : Byte) (s : State) : (ctrlWrite v s).turns = s.turns := rfl

@[simp] theorem arg0Write_blk (v : Byte) (s : State) : (arg0Write v s).blk = s.blk := rfl
@[simp] theorem arg0Write_key (v : Byte) (s : State) : (arg0Write v s).key = s.key := rfl
@[simp] theorem arg0Write_rk (v : Byte) (s : State) : (arg0Write v s).rk = s.rk := rfl
@[simp] theorem arg0Write_keyCnt (v : Byte) (s : State) : (arg0Write v s).keyCnt = s.keyCnt := rfl
@[simp] theorem arg0Write_blkCnt (v : Byte) (s : State) : (arg0Write v s).blkCnt = s.blkCnt := rfl
@[simp] theorem arg0Write_arg0 (v : Byte) (s : State) : (arg0Write v s).arg0 = v := rfl
@[simp] theorem arg0Write_arg1 (v : Byte) (s : State) : (arg0Write v s).arg1 = s.arg1 := rfl
@[simp] theorem arg0Write_result (v : Byte) (s : State) : (arg0Write v s).result = s.result := rfl
@[simp] theorem arg0Write_done (v : Byte) (s : State) : (arg0Write v s).done = s.done := rfl
@[simp] theorem arg0Write_schedValid (v : Byte) (s : State) : (arg0Write v s).schedValid = s.schedValid := rfl
@[simp] theorem arg0Write_coll (v : Byte) (s : State) : (arg0Write v s).coll = s.coll := rfl
@[simp] theorem arg0Write_errcode (v : Byte) (s : State) : (arg0Write v s).errcode = s.errcode := rfl
@[simp] theorem arg0Write_ie (v : Byte) (s : State) : (arg0Write v s).ie = s.ie := rfl
@[simp] theorem arg0Write_phase (v : Byte) (s : State) : (arg0Write v s).phase = s.phase := rfl
@[simp] theorem arg0Write_pendOp (v : Byte) (s : State) : (arg0Write v s).pendOp = s.pendOp := rfl
@[simp] theorem arg0Write_uidx (v : Byte) (s : State) : (arg0Write v s).uidx = s.uidx := rfl
@[simp] theorem arg0Write_rdata (v : Byte) (s : State) : (arg0Write v s).rdata = s.rdata := rfl
@[simp] theorem arg0Write_draws (v : Byte) (s : State) : (arg0Write v s).draws = s.draws := rfl
@[simp] theorem arg0Write_program (v : Byte) (s : State) : (arg0Write v s).program = s.program := rfl
@[simp] theorem arg0Write_turns (v : Byte) (s : State) : (arg0Write v s).turns = s.turns := rfl

@[simp] theorem arg1Write_blk (v : Byte) (s : State) : (arg1Write v s).blk = s.blk := rfl
@[simp] theorem arg1Write_key (v : Byte) (s : State) : (arg1Write v s).key = s.key := rfl
@[simp] theorem arg1Write_rk (v : Byte) (s : State) : (arg1Write v s).rk = s.rk := rfl
@[simp] theorem arg1Write_keyCnt (v : Byte) (s : State) : (arg1Write v s).keyCnt = s.keyCnt := rfl
@[simp] theorem arg1Write_blkCnt (v : Byte) (s : State) : (arg1Write v s).blkCnt = s.blkCnt := rfl
@[simp] theorem arg1Write_arg0 (v : Byte) (s : State) : (arg1Write v s).arg0 = s.arg0 := rfl
@[simp] theorem arg1Write_arg1 (v : Byte) (s : State) : (arg1Write v s).arg1 = v := rfl
@[simp] theorem arg1Write_result (v : Byte) (s : State) : (arg1Write v s).result = s.result := rfl
@[simp] theorem arg1Write_done (v : Byte) (s : State) : (arg1Write v s).done = s.done := rfl
@[simp] theorem arg1Write_schedValid (v : Byte) (s : State) : (arg1Write v s).schedValid = s.schedValid := rfl
@[simp] theorem arg1Write_coll (v : Byte) (s : State) : (arg1Write v s).coll = s.coll := rfl
@[simp] theorem arg1Write_errcode (v : Byte) (s : State) : (arg1Write v s).errcode = s.errcode := rfl
@[simp] theorem arg1Write_ie (v : Byte) (s : State) : (arg1Write v s).ie = s.ie := rfl
@[simp] theorem arg1Write_phase (v : Byte) (s : State) : (arg1Write v s).phase = s.phase := rfl
@[simp] theorem arg1Write_pendOp (v : Byte) (s : State) : (arg1Write v s).pendOp = s.pendOp := rfl
@[simp] theorem arg1Write_uidx (v : Byte) (s : State) : (arg1Write v s).uidx = s.uidx := rfl
@[simp] theorem arg1Write_rdata (v : Byte) (s : State) : (arg1Write v s).rdata = s.rdata := rfl
@[simp] theorem arg1Write_draws (v : Byte) (s : State) : (arg1Write v s).draws = s.draws := rfl
@[simp] theorem arg1Write_program (v : Byte) (s : State) : (arg1Write v s).program = s.program := rfl
@[simp] theorem arg1Write_turns (v : Byte) (s : State) : (arg1Write v s).turns = s.turns := rfl

@[simp] theorem returnByte_blk (v : Byte) (s : State) : (returnByte v s).blk = s.blk := rfl
@[simp] theorem returnByte_key (v : Byte) (s : State) : (returnByte v s).key = s.key := rfl
@[simp] theorem returnByte_rk (v : Byte) (s : State) : (returnByte v s).rk = s.rk := rfl
@[simp] theorem returnByte_keyCnt (v : Byte) (s : State) : (returnByte v s).keyCnt = s.keyCnt := rfl
@[simp] theorem returnByte_blkCnt (v : Byte) (s : State) : (returnByte v s).blkCnt = s.blkCnt := rfl
@[simp] theorem returnByte_arg0 (v : Byte) (s : State) : (returnByte v s).arg0 = s.arg0 := rfl
@[simp] theorem returnByte_arg1 (v : Byte) (s : State) : (returnByte v s).arg1 = s.arg1 := rfl
@[simp] theorem returnByte_result (v : Byte) (s : State) : (returnByte v s).result = s.result := rfl
@[simp] theorem returnByte_done (v : Byte) (s : State) : (returnByte v s).done = s.done := rfl
@[simp] theorem returnByte_schedValid (v : Byte) (s : State) : (returnByte v s).schedValid = s.schedValid := rfl
@[simp] theorem returnByte_coll (v : Byte) (s : State) : (returnByte v s).coll = s.coll := rfl
@[simp] theorem returnByte_errcode (v : Byte) (s : State) : (returnByte v s).errcode = s.errcode := rfl
@[simp] theorem returnByte_ie (v : Byte) (s : State) : (returnByte v s).ie = s.ie := rfl
@[simp] theorem returnByte_phase (v : Byte) (s : State) : (returnByte v s).phase = s.phase := rfl
@[simp] theorem returnByte_pendOp (v : Byte) (s : State) : (returnByte v s).pendOp = s.pendOp := rfl
@[simp] theorem returnByte_uidx (v : Byte) (s : State) : (returnByte v s).uidx = s.uidx := rfl
@[simp] theorem returnByte_rdata (v : Byte) (s : State) : (returnByte v s).rdata = some v := rfl
@[simp] theorem returnByte_draws (v : Byte) (s : State) : (returnByte v s).draws = s.draws := rfl
@[simp] theorem returnByte_program (v : Byte) (s : State) : (returnByte v s).program = s.program := rfl
@[simp] theorem returnByte_turns (v : Byte) (s : State) : (returnByte v s).turns = s.turns := rfl

@[simp] theorem countDraw_blk (s : State) : (countDraw s).blk = s.blk := rfl
@[simp] theorem countDraw_key (s : State) : (countDraw s).key = s.key := rfl
@[simp] theorem countDraw_rk (s : State) : (countDraw s).rk = s.rk := rfl
@[simp] theorem countDraw_keyCnt (s : State) : (countDraw s).keyCnt = s.keyCnt := rfl
@[simp] theorem countDraw_blkCnt (s : State) : (countDraw s).blkCnt = s.blkCnt := rfl
@[simp] theorem countDraw_arg0 (s : State) : (countDraw s).arg0 = s.arg0 := rfl
@[simp] theorem countDraw_arg1 (s : State) : (countDraw s).arg1 = s.arg1 := rfl
@[simp] theorem countDraw_result (s : State) : (countDraw s).result = s.result := rfl
@[simp] theorem countDraw_done (s : State) : (countDraw s).done = s.done := rfl
@[simp] theorem countDraw_schedValid (s : State) : (countDraw s).schedValid = s.schedValid := rfl
@[simp] theorem countDraw_coll (s : State) : (countDraw s).coll = s.coll := rfl
@[simp] theorem countDraw_errcode (s : State) : (countDraw s).errcode = s.errcode := rfl
@[simp] theorem countDraw_ie (s : State) : (countDraw s).ie = s.ie := rfl
@[simp] theorem countDraw_phase (s : State) : (countDraw s).phase = s.phase := rfl
@[simp] theorem countDraw_pendOp (s : State) : (countDraw s).pendOp = s.pendOp := rfl
@[simp] theorem countDraw_uidx (s : State) : (countDraw s).uidx = s.uidx := rfl
@[simp] theorem countDraw_rdata (s : State) : (countDraw s).rdata = s.rdata := rfl
@[simp] theorem countDraw_draws (s : State) : (countDraw s).draws = s.draws + 1 := rfl
@[simp] theorem countDraw_program (s : State) : (countDraw s).program = s.program := rfl
@[simp] theorem countDraw_turns (s : State) : (countDraw s).turns = s.turns := rfl

@[simp] theorem clearAll_blk (s : State) : (clearAll s).blk = zeroBlock := rfl
@[simp] theorem clearAll_key (s : State) : (clearAll s).key = zeroBlock := rfl
@[simp] theorem clearAll_rk (s : State) : (clearAll s).rk = zeroSchedule := rfl
@[simp] theorem clearAll_keyCnt (s : State) : (clearAll s).keyCnt = 0x00 := rfl
@[simp] theorem clearAll_blkCnt (s : State) : (clearAll s).blkCnt = 0x00 := rfl
@[simp] theorem clearAll_arg0 (s : State) : (clearAll s).arg0 = 0x00 := rfl
@[simp] theorem clearAll_arg1 (s : State) : (clearAll s).arg1 = 0x00 := rfl
@[simp] theorem clearAll_result (s : State) : (clearAll s).result = 0x00 := rfl
@[simp] theorem clearAll_done (s : State) : (clearAll s).done = s.done := rfl
@[simp] theorem clearAll_schedValid (s : State) : (clearAll s).schedValid = false := rfl
@[simp] theorem clearAll_coll (s : State) : (clearAll s).coll = false := rfl
@[simp] theorem clearAll_errcode (s : State) : (clearAll s).errcode = s.errcode := rfl
@[simp] theorem clearAll_ie (s : State) : (clearAll s).ie = s.ie := rfl
@[simp] theorem clearAll_phase (s : State) : (clearAll s).phase = s.phase := rfl
@[simp] theorem clearAll_pendOp (s : State) : (clearAll s).pendOp = s.pendOp := rfl
@[simp] theorem clearAll_uidx (s : State) : (clearAll s).uidx = s.uidx := rfl
@[simp] theorem clearAll_rdata (s : State) : (clearAll s).rdata = s.rdata := rfl
@[simp] theorem clearAll_draws (s : State) : (clearAll s).draws = s.draws := rfl
@[simp] theorem clearAll_program (s : State) : (clearAll s).program = s.program := rfl
@[simp] theorem clearAll_turns (s : State) : (clearAll s).turns = s.turns := rfl

@[simp] theorem resetCore_blk (s : State) : (resetCore s).blk = State.reset.blk := rfl
@[simp] theorem resetCore_key (s : State) : (resetCore s).key = State.reset.key := rfl
@[simp] theorem resetCore_rk (s : State) : (resetCore s).rk = State.reset.rk := rfl
@[simp] theorem resetCore_keyCnt (s : State) : (resetCore s).keyCnt = State.reset.keyCnt := rfl
@[simp] theorem resetCore_blkCnt (s : State) : (resetCore s).blkCnt = State.reset.blkCnt := rfl
@[simp] theorem resetCore_arg0 (s : State) : (resetCore s).arg0 = State.reset.arg0 := rfl
@[simp] theorem resetCore_arg1 (s : State) : (resetCore s).arg1 = State.reset.arg1 := rfl
@[simp] theorem resetCore_result (s : State) : (resetCore s).result = State.reset.result := rfl
@[simp] theorem resetCore_done (s : State) : (resetCore s).done = State.reset.done := rfl
@[simp] theorem resetCore_schedValid (s : State) : (resetCore s).schedValid = State.reset.schedValid := rfl
@[simp] theorem resetCore_coll (s : State) : (resetCore s).coll = State.reset.coll := rfl
@[simp] theorem resetCore_errcode (s : State) : (resetCore s).errcode = State.reset.errcode := rfl
@[simp] theorem resetCore_ie (s : State) : (resetCore s).ie = State.reset.ie := rfl
@[simp] theorem resetCore_phase (s : State) : (resetCore s).phase = State.reset.phase := rfl
@[simp] theorem resetCore_pendOp (s : State) : (resetCore s).pendOp = State.reset.pendOp := rfl
@[simp] theorem resetCore_uidx (s : State) : (resetCore s).uidx = State.reset.uidx := rfl
@[simp] theorem resetCore_rdata (s : State) : (resetCore s).rdata = s.rdata := rfl
@[simp] theorem resetCore_draws (s : State) : (resetCore s).draws = s.draws := rfl
@[simp] theorem resetCore_program (s : State) : (resetCore s).program = s.program := rfl
@[simp] theorem resetCore_turns (s : State) : (resetCore s).turns = s.turns := rfl

end Sys2Proof.Machine
end

