-- ==== Sys2Proof/Laws/Ops.lean ====
section
/-! SUPPORT. The shared operations of the commands: what a command rule answers, when its checks pass, and the
effect of each command as one function. -/

namespace Sys2Proof.Machine

@[simp] theorem runCommand_failed (e : ErrCode) (f : State → State) (s : State) :
    runCommand (some e) f s = .next (raise e s) := rfl

@[simp] theorem runCommand_passed (f : State → State) (s : State) :
    runCommand none f s = .next (complete .ok (f s)) := rfl

/-- A command rule answers a next state: the error completion of its first failed check, or the effect
completed with OK. -/
theorem runCommand_cases (check : Option ErrCode) (f : State → State) (s : State) :
    (∃ e, check = some e ∧ runCommand check f s = .next (raise e s)) ∨
    (check = none ∧ runCommand check f s = .next (complete .ok (f s))) := by
  cases check with
  | some e => exact .inl ⟨e, rfl, rfl⟩
  | none => exact .inr ⟨rfl, rfl⟩

@[simp] theorem require_eq_none {b : Bool} {e : ErrCode} : require b e = none ↔ b = true := by
  cases b <;> simp [require]

@[simp] theorem require_eq_some {b : Bool} {e x : ErrCode} : require b e = some x ↔ b = false ∧ e = x := by
  cases b <;> simp [require]

@[simp] theorem checkKey_eq_none {s : State} : checkKey s = none ↔ s.keyCnt = 16 := by
  simp [checkKey]

@[simp] theorem checkBlock_eq_none {s : State} : checkBlock s = none ↔ s.blkCnt = 16 := by
  simp [checkBlock]

@[simp] theorem checkSchedule_eq_none {s : State} : checkSchedule s = none ↔ s.schedValid = true := by
  simp [checkSchedule]

@[simp] theorem checkRound_eq_none {s : State} :
    checkRound s = none ↔ 1 ≤ s.arg0.toNat ∧ s.arg0.toNat ≤ 10 := by
  simp only [checkRound, require_eq_none, Bool.and_eq_true, decide_eq_true_eq]; rfl

@[simp] theorem checkIndex_eq_none {s : State} : checkIndex s = none ↔ s.arg0.toNat ≤ 10 := by
  simp only [checkIndex, require_eq_none, decide_eq_true_eq]; rfl

/-- Whether an instruction is a command (format C). -/
def isCommand : Instr → Bool
  | .rd _ | .wr _ _ => false
  | _ => true

/-- What a command writes besides the completion fields, its checks having passed. -/
def commandEffect (i : Instr) (s : State) : State :=
  match i with
  | .nop | .rd _ | .wr _ _ => s
  | .expand => { s with rk := expandKey s.key, schedValid := true }
  | .encrypt => { s with blk := encrypt s.blk s.rk }
  | .decrypt => { s with blk := decrypt s.blk s.rk }
  | .subBytes => { s with blk := subBytes s.blk }
  | .invSubBytes => { s with blk := invSubBytes s.blk }
  | .shiftRows => { s with blk := shiftRows s.blk }
  | .invShiftRows => { s with blk := invShiftRows s.blk }
  | .mixColumns => { s with blk := mixColumns s.blk }
  | .invMixColumns => { s with blk := invMixColumns s.blk }
  | .addRoundKey =>
    match selectedRoundKey s with
    | some k => { s with blk := addRoundKey s.blk k }
    | none => s
  | .gfMul => { s with result := gmul s.arg0 s.arg1 }
  | .sbox => { s with result := sbox s.arg0 }
  | .invSbox => { s with result := invSbox s.arg0 }
  | .rcon => { s with result := rcon (argIndex s) }
  | .clearAll => clearAll s
  | .clearKey => { s with key := zeroBlock, keyCnt := 0x00 }
  | .clearBlk => { s with blk := zeroBlock, blkCnt := 0x00 }

/-- Every command is its checks, its effect and its completion. -/
theorem exec_eq_runCommand {i : Instr} (h : isCommand i = true) (s : State) :
    exec i s = runCommand (commandCheck i s) (commandEffect i) s := by
  cases i <;> first | rfl | simp [isCommand] at h

end Sys2Proof.Machine
end

