-- ==== Sys2Proof/Laws/HostPort.lean ====
section
/-! SUPPORT. What the two transactions can do, and every instruction with them. -/

namespace Sys2Proof.Machine

/-- Nothing is unspecified while idle. -/
theorem unspecifiedBits_idle {s : State} (h : s.phase = .idle) (l : Location) :
    unspecifiedBits l s = 0x00 := by
  simp [unspecifiedBits, h]

/-- While idle a read returns the value of the location. -/
theorem memRead_idle {s : State} (h : s.phase = .idle) (a : Byte) : memRead a s = value (locate a) s := by
  simp [memRead, h]

/-- A write while idle never touches RK, SCHED_VALID, RESULT or the host's side of the port. -/
theorem idleWrite_frame (l : Location) (v : Byte) (s : State) :
    (idleWrite l v s).rk = s.rk ∧ (idleWrite l v s).schedValid = s.schedValid ∧
    (idleWrite l v s).result = s.result ∧ (idleWrite l v s).rdata = s.rdata ∧
    (idleWrite l v s).draws = s.draws ∧ (idleWrite l v s).program = s.program ∧
    (idleWrite l v s).turns = s.turns := by
  cases l <;> exact ⟨rfl, rfl, rfl, rfl, rfl, rfl, rfl⟩

/-- What an instruction answers: a command its error or its completed effect, a read its byte, a write its drop or
its effect. -/
theorem exec_cases (i : Instr) (s : State) :
    (∃ e, isCommand i = true ∧ commandCheck i s = some e ∧ exec i s = .next (raise e s)) ∨
    (isCommand i = true ∧ commandCheck i s = none ∧ exec i s = .next (complete .ok (commandEffect i s))) ∨
    (∃ a, i = .rd a ∧
      exec i s = .next (returnByte (memRead a s) (if readDraws a s then countDraw s else s))) ∨
    (∃ a v, i = .wr a v ∧ s.phase = .busy ∧ exec i s = .next (dropWrite s)) ∨
    (∃ a v, i = .wr a v ∧ s.phase = .idle ∧ exec i s = .next (idleWrite (locate a) v s)) := by
  cases hi : isCommand i with
  | true =>
    rw [exec_eq_runCommand hi]
    rcases runCommand_cases (commandCheck i s) (commandEffect i) s with ⟨e, hc, hr⟩ | ⟨hc, hr⟩
    · exact .inl ⟨e, rfl, hc, hr⟩
    · exact .inr (.inl ⟨rfl, hc, hr⟩)
  | false =>
    cases i with
    | rd a => exact .inr (.inr (.inl ⟨a, rfl, rfl⟩))
    | wr a v =>
      cases hp : s.phase with
      | busy => exact .inr (.inr (.inr (.inl ⟨a, v, rfl, rfl, by simp [exec, execWr, hp]⟩)))
      | idle => exact .inr (.inr (.inr (.inr ⟨a, v, rfl, rfl, by simp [exec, execWr, hp]⟩)))
    | _ => simp [isCommand] at hi

end Sys2Proof.Machine
end

