-- ==== Sys2Proof/Laws/PerInstr.lean ====
section
/-! SUPPORT. Statements made of every instruction, one lemma per constructor. -/

namespace Sys2Proof.Laws.TableRow

/-- An encoded instruction as the number the opcode table's `match` and `mask` are about. -/
def number : Encoded → Nat
  | .command op => op.toNat
  | .transaction w => w.toNat

/-- `mask` and `match` of each row of opcode_table.json (30_encoding.md R111). -/
def row : Instr → Nat × Nat
  | .nop => (0xFF, 0x00)
  | .expand => (0xFF, 0x01)
  | .encrypt => (0xFF, 0x02)
  | .decrypt => (0xFF, 0x03)
  | .subBytes => (0xFF, 0x10)
  | .invSubBytes => (0xFF, 0x11)
  | .shiftRows => (0xFF, 0x12)
  | .invShiftRows => (0xFF, 0x13)
  | .mixColumns => (0xFF, 0x14)
  | .invMixColumns => (0xFF, 0x15)
  | .addRoundKey => (0xFF, 0x16)
  | .gfMul => (0xFF, 0x20)
  | .sbox => (0xFF, 0x21)
  | .invSbox => (0xFF, 0x22)
  | .rcon => (0xFF, 0x23)
  | .clearAll => (0xFF, 0xF0)
  | .clearKey => (0xFF, 0xF1)
  | .clearBlk => (0xFF, 0xF2)
  | .rd _ => (0x10000, 0x00000)
  | .wr _ _ => (0x10000, 0x10000)

/-- The encoded instruction matches its row of the table. -/
def Statement (i : Instr) : Prop := number (encode i) &&& (row i).1 = (row i).2

theorem nop : Statement .nop := rfl
theorem expand : Statement .expand := rfl
theorem encrypt : Statement .encrypt := rfl
theorem decrypt : Statement .decrypt := rfl
theorem subBytes : Statement .subBytes := rfl
theorem invSubBytes : Statement .invSubBytes := rfl
theorem shiftRows : Statement .shiftRows := rfl
theorem invShiftRows : Statement .invShiftRows := rfl
theorem mixColumns : Statement .mixColumns := rfl
theorem invMixColumns : Statement .invMixColumns := rfl
theorem addRoundKey : Statement .addRoundKey := rfl
theorem gfMul : Statement .gfMul := rfl
theorem sbox : Statement .sbox := rfl
theorem invSbox : Statement .invSbox := rfl
theorem rcon : Statement .rcon := rfl
theorem clearAll : Statement .clearAll := rfl
theorem clearKey : Statement .clearKey := rfl
theorem clearBlk : Statement .clearBlk := rfl

/-- Bit 16 of a word under the mask 0x10000. -/
theorem mask_bit16 (we : Bool) (a d : Byte) :
    (transactionWord we a d).toNat &&& 0x10000 = if we then 0x10000 else 0 := by
  have hbit : (transactionWord we a d).toNat.testBit 16 = we := by
    rw [BitVec.testBit_toNat, BitVec.getLsbD_eq_getElem (by omega), transactionWord_we]
  have hpow : (0x10000 : Nat) = 2 ^ 16 := rfl
  rw [hpow, Nat.and_two_pow, hbit]
  cases we <;> rfl

theorem rd (a : Byte) : Statement (.rd a) := mask_bit16 false a 0x00
theorem wr (a v : Byte) : Statement (.wr a v) := mask_bit16 true a v

end Sys2Proof.Laws.TableRow
end

