-- ==== Sys2Proof/Laws/Step.lean ====
section
/-! SUPPORT. What a step can do, one lemma per agent. -/

namespace Sys2Proof.Machine

@[simp] theorem nextTurn_cons {s : State} {t : Turn} {ts : List Turn} (h : s.turns = t :: ts) :
    nextTurn s = t := by
  simp [nextTurn, h]

theorem step_eq (s : State) : step s = turnStep (nextTurn s) { s with turns := s.turns.tail } := rfl

/-- A micro-step changes UIDX alone, by at most 1. -/
theorem microStep_cases (s : State) :
    (microReady s = true ∧ microStep s = { s with uidx := s.uidx + 1 }) ∨
    (microReady s = false ∧ microStep s = s) := by
  unfold microStep
  cases h : microReady s <;> simp

/-- The core's step: nothing while idle; while BUSY the pending command, or the error of a reserved opcode. -/
theorem coreStep_cases (s : State) :
    (s.phase = .idle ∧ coreStep s = .next s) ∨
    (s.phase = .busy ∧ ∃ i, decodeCommand s.pendOp = .ok i ∧ coreStep s = exec i s) ∨
    (s.phase = .busy ∧ ∃ e, decodeCommand s.pendOp = .error e ∧ coreStep s = .next (raise .illegalCommand s)) := by
  unfold coreStep
  cases hp : s.phase with
  | idle => exact .inl ⟨rfl, rfl⟩
  | busy =>
    cases hd : decodeCommand s.pendOp with
    | ok i => exact .inr (.inl ⟨rfl, i, rfl, rfl⟩)
    | error e => exact .inr (.inr ⟨rfl, e, rfl, rfl⟩)

/-- `repeatPoll` may put `poll` back and changes nothing else. -/
theorem repeatPoll_cases (s : State) :
    repeatPoll s = s ∨ repeatPoll s = { s with program := .poll :: s.program } := by
  unfold repeatPoll
  split
  · split
    · exact .inr rfl
    · exact .inl rfl
  · exact .inl rfl

/-- The host's step: an idle cycle, the next word's transaction, or a read of STATUS for `poll`. -/
theorem hostStep_cases (s : State) :
    (s.program = [] ∧ hostStep s = .next s) ∨
    (∃ w rest, s.program = .word w :: rest ∧ hostStep s = exec (fetchWord w) { s with program := rest }) ∨
    (∃ rest t, s.program = .poll :: rest ∧ exec (fetchWord pollWord) { s with program := rest } = .next t ∧
      hostStep s = .next (repeatPoll t)) := by
  unfold hostStep
  split
  · exact .inl ⟨by assumption, rfl⟩
  · rename_i w rest h
    exact .inr (.inl ⟨w, rest, h, rfl⟩)
  · rename_i rest h
    exact .inr (.inr ⟨rest, _, h, rfl, rfl⟩)

/-- The transaction of `poll` is `rd STATUS`. -/
theorem fetch_pollWord : fetchWord pollWord = .rd 0x01 := by decide

end Sys2Proof.Machine
end

