-- ==== Sys2Proof/Tests/Slice0.lean ====
section
/-! SUPPORT. Tests: every expected value is taken from spec/ (mostly 95_test_vectors.md), each test about one
step or one function; and for every statement with hypotheses a witness that meets them. -/

namespace Sys2Proof.Tests

open Sys2Proof Sys2Proof.Machine Sys2Proof.Claims

/-- The next state of an outcome. -/
def after (o : Host.Outcome State Fault Refusal) : Option State :=
  match o with
  | .next s => some s
  | .fault _ => none
  | .refused _ => none

/-- The bytes 00 01 .. 0f: key C1 of 95_test_vectors.md, and the input of V-BT. -/
def c1 : Block := #v[0x00, 0x01, 0x02, 0x03, 0x04, 0x05, 0x06, 0x07, 0x08, 0x09, 0x0a, 0x0b, 0x0c, 0x0d, 0x0e, 0x0f]

/-- The block 00 11 .. ff of 95_test_vectors.md. -/
def plain : Block := #v[0x00, 0x11, 0x22, 0x33, 0x44, 0x55, 0x66, 0x77, 0x88, 0x99, 0xaa, 0xbb, 0xcc, 0xdd, 0xee, 0xff]

/-- A full block `b` in STATE, no schedule. -/
def loaded (b : Block) : State := { State.reset with blk := b, blkCnt := 16 }

/-- A full block `b` in STATE and the schedule of key C1. -/
def keyed (b : Block) : State :=
  { loaded b with key := c1, keyCnt := 16, rk := expandKey c1, schedValid := true }

/-- ARG0 and ARG1 set. -/
def args (a b : Byte) : State := { State.reset with arg0 := a, arg1 := b }

/-- A command in progress, the core's turn. -/
def pending (op : Byte) : State := { State.reset with phase := .busy, pendOp := op, turns := [.core] }

/-! ## Decoding: the words of 30_encoding.md R102 and of the programs P1 to P4 -/

theorem test_decode_nop : decode (.command 0b00000000) = .ok .nop := by decide
theorem test_decode_expand : decode (.command 0b00000001) = .ok .expand := by decide
theorem test_decode_encrypt : decode (.command 0b00000010) = .ok .encrypt := by decide
theorem test_decode_decrypt : decode (.command 0b00000011) = .ok .decrypt := by decide
theorem test_decode_subBytes : decode (.command 0b00010000) = .ok .subBytes := by decide
theorem test_decode_invSubBytes : decode (.command 0b00010001) = .ok .invSubBytes := by decide
theorem test_decode_shiftRows : decode (.command 0b00010010) = .ok .shiftRows := by decide
theorem test_decode_invShiftRows : decode (.command 0b00010011) = .ok .invShiftRows := by decide
theorem test_decode_mixColumns : decode (.command 0b00010100) = .ok .mixColumns := by decide
theorem test_decode_invMixColumns : decode (.command 0b00010101) = .ok .invMixColumns := by decide
theorem test_decode_addRoundKey : decode (.command 0b00010110) = .ok .addRoundKey := by decide
theorem test_decode_gfMul : decode (.command 0b00100000) = .ok .gfMul := by decide
theorem test_decode_sbox : decode (.command 0b00100001) = .ok .sbox := by decide
theorem test_decode_invSbox : decode (.command 0b00100010) = .ok .invSbox := by decide
theorem test_decode_rcon : decode (.command 0b00100011) = .ok .rcon := by decide
theorem test_decode_clearAll : decode (.command 0b11110000) = .ok .clearAll := by decide
theorem test_decode_clearKey : decode (.command 0b11110001) = .ok .clearKey := by decide
theorem test_decode_clearBlk : decode (.command 0b11110010) = .ok .clearBlk := by decide
theorem test_decode_rd : decode (.transaction 0x00800) = .ok (.rd 0x08) := by decide
theorem test_decode_wr : decode (.transaction 0x10931) = .ok (.wr 0x09 0x31) := by decide
theorem test_decode_reserved : decode (.command 0x7F) = .error (.reservedOpcode 0x7F) := by decide
theorem test_tableWord_command : decodeTableWord 8 0x16 = some .addRoundKey := by decide
theorem test_tableWord_transaction : decodeTableWord 24 0x10657 = some (.wr 0x06 0x57) := by decide
theorem test_tableWord_too_wide : decodeTableWord 24 0x20000 = none := by decide

/-! ## Well-formedness: each check refuses an ill-formed term -/

theorem test_wr_address_too_wide : (HostLine.wr 0x100 0x00).wellFormed = false := by decide
theorem test_wr_datum_too_wide : (HostLine.wr 0x00 256).wellFormed = false := by decide
theorem test_rd_address_too_wide : (HostLine.rd 256).wellFormed = false := by decide
theorem test_cmd_opcode_too_wide : (HostLine.cmd 0x1F0).wellFormed = false := by decide
theorem test_run_opcode_too_wide : (HostLine.run 0x1F0).wellFormed = false := by decide
theorem test_loadkey_datum_too_wide : (HostLine.loadkey [0x31, 0x132]).wellFormed = false := by decide
theorem test_loadblk_datum_too_wide : (HostLine.loadblk [0x41, 0x142]).wellFormed = false := by decide
theorem test_setarg_first_too_wide : (HostLine.setarg 256 none).wellFormed = false := by decide
theorem test_setarg_second_too_wide : (HostLine.setarg 0x57 (some 256)).wellFormed = false := by decide
theorem test_readrk_index_too_high : (HostLine.readrk 11).wellFormed = false := by decide

/-- P1 line 3, `run EXPAND` = 10001 then the poll. -/
theorem test_expand_run : expandLine (.run 0x01) = [.word 0x10001, .poll] := by decide
/-- P3 line 16, `setarg 0x57, 0x83` = 10657 10783. -/
theorem test_expand_setarg : expandLine (.setarg 0x57 (some 0x83)) = [.word 0x10657, .word 0x10783] := by
  decide
/-- P1 line 5, `readrk 10` begins with 0d000. -/
theorem test_expand_readrk : (expandLine (.readrk 10)).head? = some (.word 0x0d000) := by decide

/-! ## Commands: 95_test_vectors.md -/

/-- V-GF. -/
theorem test_gfMul : (after (exec .gfMul (args 0x57 0x83))).map (·.result) = some 0xc1 := by decide
theorem test_gfMul_all_ones : gmul 0xff 0xff = 0x13 := by decide
/-- V-RC. -/
theorem test_rcon_ten : (after (exec .rcon (args 0x0a 0))).map (·.result) = some 0x36 := by decide
theorem test_rcon_eleven : (after (exec .rcon (args 0x0b 0))).map (·.errcode) = some 0x04 := by decide
/-- V-SB. -/
theorem test_sbox : (after (exec .sbox (args 0x53 0))).map (·.result) = some 0xed := by decide
theorem test_invSbox : (after (exec .invSbox (args 0xed 0))).map (·.result) = some 0x53 := by decide
/-- V-KS, key C1, round keys 1 and 10. -/
theorem test_expand_rk1 : (expandKey c1).get 1 = #v[0xd6, 0xaa, 0x74, 0xfd, 0xd2, 0xaf, 0x72, 0xfa, 0xda, 0xa6, 0x78, 0xf1, 0xd6, 0xab, 0x76, 0xfe] := by
  decide +kernel
theorem test_expand_rk10 : (expandKey c1).get 10 = #v[0x13, 0x11, 0x1d, 0x7f, 0xe3, 0x94, 0x4a, 0x17, 0xf3, 0x07, 0xa7, 0x8b, 0x4d, 0x2b, 0x30, 0xc5] := by
  decide +kernel
/-- V-BT. -/
theorem test_subBytes : (after (exec .subBytes (loaded c1))).map (·.blk) = some #v[0x63, 0x7c, 0x77, 0x7b, 0xf2, 0x6b, 0x6f, 0xc5, 0x30, 0x01, 0x67, 0x2b, 0xfe, 0xd7, 0xab, 0x76] := by
  decide +kernel
theorem test_invSubBytes : (after (exec .invSubBytes (loaded c1))).map (·.blk) = some #v[0x52, 0x09, 0x6a, 0xd5, 0x30, 0x36, 0xa5, 0x38, 0xbf, 0x40, 0xa3, 0x9e, 0x81, 0xf3, 0xd7, 0xfb] := by
  decide +kernel
theorem test_shiftRows : (after (exec .shiftRows (loaded c1))).map (·.blk) = some #v[0x00, 0x05, 0x0a, 0x0f, 0x04, 0x09, 0x0e, 0x03, 0x08, 0x0d, 0x02, 0x07, 0x0c, 0x01, 0x06, 0x0b] := by
  decide +kernel
theorem test_invShiftRows : (after (exec .invShiftRows (loaded c1))).map (·.blk) = some #v[0x00, 0x0d, 0x0a, 0x07, 0x04, 0x01, 0x0e, 0x0b, 0x08, 0x05, 0x02, 0x0f, 0x0c, 0x09, 0x06, 0x03] := by
  decide +kernel
theorem test_mixColumns : (after (exec .mixColumns (loaded c1))).map (·.blk) = some #v[0x02, 0x07, 0x00, 0x05, 0x06, 0x03, 0x04, 0x01, 0x0a, 0x0f, 0x08, 0x0d, 0x0e, 0x0b, 0x0c, 0x09] := by
  decide +kernel
theorem test_invMixColumns : (after (exec .invMixColumns (loaded c1))).map (·.blk) = some #v[0x0a, 0x0f, 0x08, 0x0d, 0x0e, 0x0b, 0x0c, 0x09, 0x02, 0x07, 0x00, 0x05, 0x06, 0x03, 0x04, 0x01] := by
  decide +kernel
theorem test_addRoundKey : (after (exec .addRoundKey ({ keyed plain with arg0 := 0x01 }))).map (·.blk) = some #v[0xd6, 0xbb, 0x56, 0xce, 0x96, 0xfa, 0x14, 0x8d, 0x52, 0x3f, 0xd2, 0x4a, 0x1a, 0x76, 0x98, 0x01] := by
  decide +kernel
/-- V-CI, row C1. -/
theorem test_encrypt : (after (exec .encrypt (keyed plain))).map (·.blk) = some #v[0x69, 0xc4, 0xe0, 0xd8, 0x6a, 0x7b, 0x04, 0x30, 0xd8, 0xcd, 0xb7, 0x80, 0x70, 0xb4, 0xc5, 0x5a] := by
  decide +kernel
theorem test_decrypt : (after (exec .decrypt (keyed #v[0x69, 0xc4, 0xe0, 0xd8, 0x6a, 0x7b, 0x04, 0x30, 0xd8, 0xcd, 0xb7, 0x80, 0x70, 0xb4, 0xc5, 0x5a]))).map (·.blk) = some #v[0x00, 0x11, 0x22, 0x33, 0x44, 0x55, 0x66, 0x77, 0x88, 0x99, 0xaa, 0xbb, 0xcc, 0xdd, 0xee, 0xff] := by
  decide +kernel
/-- P3: the state after round 1 is what the micro-sequence of ENCRYPT holds after UIDX 4. -/
theorem test_workingBlock_round1 :
    workingBlock (expandKey c1) plain encryptSequence 5 =
      #v[0x89, 0xd8, 0x10, 0xe8, 0x85, 0x5a, 0xce, 0x68, 0x2d, 0x18, 0x43, 0xd8, 0xcb, 0x12, 0x8f, 0xe4] := by
  decide +kernel
/-- V-EX: BLK_CNT = 17, no schedule, ARG0 = 0x0B: the block first. -/
theorem test_addRoundKey_block_first :
    (after (exec .addRoundKey { State.reset with blkCnt := 17, arg0 := 0x0B })).map statusByte = some 0x06 := by
  decide
/-- V-EX: EXPAND after reset. -/
theorem test_expand_no_key : (after (exec .expand State.reset)).map (·.errcode) = some 0x01 := by decide
/-- V-EX: ENCRYPT with a block and no schedule. -/
theorem test_encrypt_no_schedule : (after (exec .encrypt (loaded plain))).map (·.errcode) = some 0x01 := by
  decide
/-- V-HP: NOP. -/
theorem test_nop : (after (step (pending 0x00))).map statusByte = some 0x02 := by decide
/-- V-HP: CLEAR_ALL keeps CTRL and raises `irq`. -/
theorem test_clearAll :
    (after (exec .clearAll { keyed plain with ie := true })).map (fun s => (statusByte s, ctrlByte s, irq s)) =
      some (0x02, 0x01, true) := by decide +kernel
/-- V-HP: CLEAR_KEY keeps the schedule. -/
theorem test_clearKey :
    (after (exec .clearKey (keyed plain))).map (fun s => (s.keyCnt, statusByte s)) = some (0x00, 0x0A) := by
  decide +kernel
theorem test_clearBlk : (after (exec .clearBlk (loaded plain))).map (fun s => (s.blkCnt, s.blk)) =
    some (0x00, Vector.replicate 16 0x00) := by decide +kernel
/-- V-EX: a reserved opcode. -/
theorem test_reserved : (after (step (pending 0xEF))).map statusByte = some 0x06 := by decide

/-! ## Transactions -/

/-- V-HP: the 17th byte is counted, not stored. -/
theorem test_keyIn_17th :
    (after (exec (.wr 0x09 0x11) { State.reset with key := c1, keyCnt := 16 })).map
      (fun s => (s.keyCnt, s.key)) = some (17, c1) := by decide +kernel
/-- V-HP: BLK_CNT saturates. -/
theorem test_blkIn_saturates :
    (after (exec (.wr 0x0A 0x00) { State.reset with blkCnt := 255 })).map (·.blkCnt) = some 0xFF := by decide
/-- V-HP: only IE is stored. -/
theorem test_ctrl : (after (exec (.wr 0x03 0xFF) State.reset)).map ctrlByte = some 0x01 := by decide
/-- V-HP: write 1 to clear. -/
theorem test_status_w1c :
    (after (exec (.wr 0x01 0x10) { State.reset with done := true, coll := true })).map statusByte =
      some 0x02 := by decide
/-- P5, run a: the write while BUSY is dropped. -/
theorem test_dropped_write :
    (after (exec (.wr 0x06 0x57) (pending 0x20))).map (fun s => (s.arg0, s.coll)) = some (0x00, true) := by
  decide
/-- R71: RK[10][15] is at 0xDF. -/
theorem test_rd_rk : (after (exec (.rd 0xDF) (keyed plain))).map (·.rdata) = some (some 0xc5) := by
  decide +kernel
/-- R260: with NOP pending STATUS reads BUSY alone. -/
theorem test_rd_status_busy : (after (exec (.rd 0x01) (pending 0x00))).map (·.rdata) = some (some 0x01) := by
  decide
/-- R260: RESULT is in the write set of GF_MUL; the read draws. -/
theorem test_rd_result_busy : (after (exec (.rd 0x08) (pending 0x20))).map (·.draws) = some 1 := by decide
/-- R86: the window of a platform. -/
theorem test_windowOffset : windowOffset 0x4000 0x4008 = some 0x08 ∧ windowOffset 0x4000 0x4100 = none := by
  decide
/-- From reset with nothing placed a step changes nothing (70_reset_and_hazards.md R311). -/
theorem test_step_reset : after (step State.reset) = some State.reset := by decide
/-- A command placed as the first instruction runs. -/
theorem test_withFetchWord_command :
    (after (step (State.reset.withFetchWord 8 0x21))).map (fun s => (s.result, s.done)) =
      some (0x63, true) := by decide
theorem test_withFetchWord_transaction :
    (after (step (State.reset.withFetchWord 24 0x10657))).map (·.arg0) = some 0x57 := by decide

/-! ## Witnesses: states and operands that meet the hypotheses of the statements -/

theorem witness_DecodeAndEncodeAgree : decode (.transaction 0x008FF) = .ok (.rd 0x08) := by decide
theorem witness_CoreTurnRunsTheDecodedCommand :
    (pending 0x20).turns = [.core] ∧ (pending 0x20).phase = .busy ∧
    decode (.command (pending 0x20).pendOp) = .ok .gfMul := by decide

/-- The host's turn with one item to send. -/
def sending (item : HostItem) : State := { State.reset with turns := [.host], program := [item] }

theorem witness_HostTurnRunsTheDecodedTransaction :
    (sending (.word 0x10657)).turns = [.host] ∧ (sending (.word 0x10657)).program = [.word 0x10657] ∧
    decode (.transaction 0x10657) = .ok (.wr 0x06 0x57) := by decide
theorem witness_PollRepeatsWhileBusy :
    (sending .poll).turns = [.host] ∧ (sending .poll).program = [.poll] ∧ (sending .poll).phase = .idle := by
  decide
theorem witness_PollRepeatsWhileBusy_busy :
    { sending .poll with phase := .busy }.turns = [.host] ∧
    { sending .poll with phase := .busy }.program = [.poll] ∧
    { sending .poll with phase := .busy }.phase = .busy := by decide
theorem witness_TurnsWithoutWorkChangeNothing :
    ({ State.reset with turns := [.core] } : State).phase = .idle ∧
    ({ State.reset with turns := [.micro] } : State).phase = .idle ∧
    ({ State.reset with turns := [.host] } : State).program = [] ∧
    State.reset.turns = [] ∧ State.reset.phase = .idle ∧
    ({ State.reset with phase := .busy } : State).turns = [] := by decide

/-- ENCRYPT in progress after `u` micro-steps, the sequencer's turn. -/
def encrypting (u : Nat) : State :=
  { keyed plain with phase := .busy, pendOp := 0x02, uidx := u, turns := [.micro] }

theorem witness_MicroTurnCountsUidxUpByOne :
    commandCheck .encrypt (encrypting 39) = none ∧ (encrypting 39).uidx < sequenceLength .encrypt ∧
    decode (.command (encrypting 39).pendOp) = .ok .encrypt := by decide
theorem witness_MicroTurnCountsUidxUpByOne_end : sequenceLength .encrypt ≤ (encrypting 40).uidx := by decide
theorem witness_MicroTurnCountsUidxUpByOne_failed :
    commandCheck .encrypt { encrypting 0 with blkCnt := 15 } ≠ none := by decide
theorem witness_IdleReadsFollowTheAddressMap : State.reset.phase = .idle := rfl
theorem witness_IdleReadsFollowTheAddressMap_reserved :
    ∀ a ∈ [0x0B#8, 0x0F#8, 0xE0#8, 0xFF#8], (0x0B ≤ a.toNat ∧ a.toNat ≤ 0x0F) ∨ 0xE0 ≤ a.toNat := by decide
theorem witness_BusyReadsOfTheWriteSetAreDraws :
    (pending 0x01).phase = .busy ∧ wholeByteUnspecified (pending 0x01).pendOp.toNat (0x30#8).toNat := by decide
theorem witness_BusyReadsOfTheWriteSetAreDraws_rows :
    ∀ p ∈ [(0x01, 0xDF), (0x02, 0x10), (0x16, 0x1F), (0x20, 0x08), (0x23, 0x08), (0xF1, 0x04), (0xF1, 0x2F),
      (0xF2, 0x05), (0xF2, 0x10), (0xF0, 0x04), (0xF0, 0x08), (0xF0, 0xDF)],
      wholeByteUnspecified p.1 p.2 := by decide
theorem witness_BusyReadsOutsideTheWriteSetAreExact :
    (pending 0x01).phase = .busy ∧ ¬ wholeByteUnspecified (pending 0x01).pendOp.toNat (0x2F#8).toNat := by
  decide
theorem witness_BusyReadsOutsideTheWriteSetAreExact_rows :
    ∀ p ∈ [(0x01, 0xE0), (0x02, 0x0F), (0x16, 0x20), (0x20, 0x07), (0xF1, 0x30), (0xF2, 0x04), (0xF0, 0x09),
      (0xF0, 0x02), (0x00, 0x10), (0x7F, 0x10)], ¬ wholeByteUnspecified p.1 p.2 := by decide
theorem witness_BusyStatusReadsAllButNamedBits :
    (pending 0x02).phase = .busy ∧ (pending 0x02).done = false ∧ (pending 0x02).errcode = 0x00 ∧
    ¬ ((pending 0x02).pendOp = 0x01 ∨ (pending 0x02).pendOp = 0xF0) := by decide
theorem witness_BusyStatusReadsAllButNamedBits_drawn :
    ∀ op ∈ [0x01#8, 0xF0#8], (pending op).phase = .busy ∧ (pending op).done = false ∧
      (pending op).errcode = 0x00 ∧ ((pending op).pendOp = 0x01 ∨ (pending op).pendOp = 0xF0) := by decide
theorem witness_WritesWhileBusyAreDropped : (pending 0x20).phase = .busy := rfl
theorem witness_CommandWriteAccepts : State.reset.phase = .idle := rfl
theorem witness_StatusWriteClearsDoneAndColl : State.reset.phase = .idle ∧ (0x02#8)[1] = true := by decide
theorem witness_CtrlWriteStoresIe :
    ({ State.reset with done := true } : State).phase = .idle ∧
    ({ State.reset with done := true } : State).done = true ∧ (0x01#8)[0] = true := by decide
theorem witness_ArgWritesStoreEveryByte : State.reset.phase = .idle := rfl
theorem witness_KeyInAppendsAndCounts :
    ({ State.reset with keyCnt := 16 } : State).phase = .idle ∧
    16 ≤ ({ State.reset with keyCnt := 16 } : State).keyCnt.toNat ∧
    16 ≤ ({ State.reset with keyCnt := 255 } : State).keyCnt.toNat := by decide
theorem witness_BlkInAppendsAndCounts :
    (loaded plain).phase = .idle ∧ 16 ≤ (loaded plain).blkCnt.toNat ∧
    16 ≤ ({ loaded plain with blkCnt := 255 } : State).blkCnt.toNat := by decide
theorem witness_OtherWritesAreIgnored :
    State.reset.phase = .idle ∧ ∀ a ∈ [0x02#8, 0x04#8, 0x08#8, 0x0B#8, 0x10#8, 0xDF#8, 0xFF#8],
      a ≠ 0x00 ∧ a ≠ 0x01 ∧ a ≠ 0x03 ∧ a ≠ 0x06 ∧ a ≠ 0x07 ∧ a ≠ 0x09 ∧ a ≠ 0x0A := by decide
theorem witness_RconWritesTheRoundConstant :
    (args 0x01 0).arg0.toNat = (0 : Fin 10).val + 1 ∧ (args 0x0A 0).arg0.toNat = (9 : Fin 10).val + 1 ∧
    (args 0x00 0).arg0.toNat < 1 ∧ 10 < (args 0x0B 0).arg0.toNat := by decide
theorem witness_ExpandWritesTheSchedule :
    (keyed plain).keyCnt = 16 ∧ ({ keyed plain with keyCnt := 15 } : State).keyCnt ≠ 16 ∧
    ({ keyed plain with keyCnt := 17 } : State).keyCnt ≠ 16 := by decide
theorem witness_BlockCommandsTransformState : (loaded c1).blkCnt = 16 := rfl
theorem witness_AddRoundKeyChecksThenXors :
    ({ loaded plain with blkCnt := 17 } : State).blkCnt ≠ 16 ∧
    ((loaded plain).blkCnt = 16 ∧ (loaded plain).schedValid = false) ∧
    ((keyed plain).blkCnt = 16 ∧ (keyed plain).schedValid = true ∧
      10 < ({ keyed plain with arg0 := 0x0B } : State).arg0.toNat) ∧
    ({ keyed plain with arg0 := 0x0A } : State).arg0.toNat = (10 : Fin 11).val := by decide
theorem witness_CipherCommandsCheckThenRun :
    State.reset.blkCnt ≠ 16 ∧ ((loaded plain).blkCnt = 16 ∧ (loaded plain).schedValid = false) ∧
    ((keyed plain).blkCnt = 16 ∧ (keyed plain).schedValid = true) := by decide
theorem witness_ReservedOpcodeCompletesIllegal :
    (pending 0x04).turns = [.core] ∧ (pending 0x04).phase = .busy ∧ (pending 0x04).pendOp ∉ definedOpcodes := by
  decide
theorem witness_FailedCommandsWriteNothingElse :
    commandCheck .addRoundKey (loaded plain) = some .invalidKeyLength := by decide
theorem witness_CheckedCommandsCompleteWithOk :
    Instr.encrypt ∈ commands ∧ commandCheck .encrypt (keyed plain) = none := by decide
theorem witness_MultiplicationIsAFieldProduct : (0x02 : Byte) ≠ 0x00 := by decide
theorem witness_DoublingMakesTheRoundConstants : 1 ≤ 10 := by decide
theorem witness_SboxIsAffineOfInverse : (0x53 : Byte) ≠ 0x00 := by decide
theorem witness_KeyStepChainsItsWords : (3 : Fin 4) ≠ 0 := by decide
theorem witness_ScheduleIsAFoldOfKeySteps : 9 < 10 := by decide
theorem witness_EncryptionRoundTrip : (keyed plain).blkCnt = 16 ∧ (keyed plain).schedValid = true := by decide
theorem witness_EveryCompletionSetsDoneAndIrq :
    (pending 0x7F).turns = [.core] ∧ (pending 0x7F).phase = .busy := by decide

/-- NOP in progress, the host's turn with one item to send. -/
def interrupted (item : HostItem) : State := { sending item with phase := .busy }

theorem witness_OperandsAreHeldWhileBusy : ∃ t, (interrupted (.word 0x10657)).phase = .busy ∧
    nextTurn (interrupted (.word 0x10657)) = .host ∧ step (interrupted (.word 0x10657)) = .next t :=
  ⟨_, rfl, rfl, rfl⟩
theorem witness_OperandsAreHeldWhileBusy_micro : ∃ t, (encrypting 0).phase = .busy ∧
    nextTurn (encrypting 0) = .micro ∧ step (encrypting 0) = .next t := ⟨_, rfl, rfl, rfl⟩
theorem witness_OnlyExpandClearAllAndResetChangeTheSchedule : ∃ t,
    step { pending 0x01 with keyCnt := 16 } = .next t ∧ t.schedValid ≠ (pending 0x01).schedValid :=
  ⟨_, rfl, by decide⟩
theorem witness_OnlyExpandClearAllAndResetChangeTheSchedule_reset : ∃ t,
    step { keyed plain with turns := [.rst false] } = .next t ∧ t.schedValid ≠ (keyed plain).schedValid :=
  ⟨_, rfl, by decide⟩
theorem witness_OnlyKeyInClearsAndResetChangeTheKey : ∃ t,
    step (sending (.word 0x10931)) = .next t ∧ t.keyCnt ≠ (sending (.word 0x10931)).keyCnt :=
  ⟨_, rfl, by decide⟩
theorem witness_OnlyKeyInClearsAndResetChangeTheKey_clear : ∃ t,
    step { pending 0xF1 with keyCnt := 16 } = .next t ∧ t.keyCnt ≠ 16 := ⟨_, rfl, by decide⟩
theorem witness_OnlyACommandWriteStartsACommand : ∃ t, step (sending (.word 0x10001)) = .next t ∧
    (sending (.word 0x10001)).phase = .idle ∧ t.phase = .busy := ⟨_, rfl, rfl, rfl⟩
theorem witness_CollIsSticky : ∃ t,
    step { sending (.word 0x10110) with coll := true } = .next t ∧ t.coll = false := ⟨_, rfl, rfl⟩
theorem witness_CollIsSticky_clear : ∃ t,
    step { pending 0xF0 with coll := true } = .next t ∧ t.coll = false := ⟨_, rfl, rfl⟩
theorem witness_CommandsComeToAnEnd :
    (pending 0x20).phase = .busy ∧ ∀ b, Turn.rst b ∉ (pending 0x20).turns := by decide
theorem witness_StatusBitsAreTheFields : ({ State.reset with done := true, ie := true } : State).phase = .idle := rfl

/-- GF_MUL about to be sent, every cycle of it with the bus in use. -/
def gfMulCycles : State :=
  { State.reset with
    turns := commandTurns 0x20 (fun _ => true) ++ [.host], program := [.word 0x10020, .word 0x10657, .poll] }

theorem witness_CycleTurnsEndInTheCompletion :
    gfMulCycles.phase = .idle ∧ gfMulCycles.turns = commandTurns 0x20 (fun _ => true) ++ [.host] ∧
    gfMulCycles.program = [.word 0x10020, .word 0x10657, .poll] ∧
    decodeTransaction 0x10020 = .wr 0x00 0x20 := ⟨rfl, rfl, rfl, by decide⟩
theorem witness_CycleTurnsEndInTheCompletion_last_cycle : 1 ≤ Config.lat 0x20 ∧ Config.lat 0x20 ≤ Config.lat 0x20 :=
  ⟨Nat.succ_le_succ (Nat.zero_le _), Nat.le_refl _⟩

/-- A command in progress, a reset edge next, the host sending `program`. -/
def resetting (drives : Bool) (program : List HostItem) : State :=
  { pending 0x20 with turns := [.rst drives], program := program }

theorem witness_ResetTurnAbandonsEverything :
    (resetting false [.poll]).turns = [.rst false] ∧ (resetting true []).program = [] := by decide
theorem witness_ResetTurnAbandonsEverything_driven :
    (resetting true [.poll]).program = [.poll] ∧
    decodeTransaction 0x10001 = .wr 0x00 0x01 ∧ decodeTransaction 0x00800 = .rd 0x08 ∧
    (resetting true [.word 0x00800]).program = [.word 0x00800] := by decide
theorem witness_EveryStepKeepsTheInvariant : ∃ t, Inv (pending 0x20) ∧ step (pending 0x20) = .next t :=
  ⟨_,
   { errcode := ⟨.ok, rfl⟩
     sequencer := ⟨fun _ => rfl, fun _ => rfl, fun _ => rfl, fun h => absurd h (Nat.lt_irrefl 0)⟩
     schedule := ⟨fun h => absurd h (by decide), fun _ => rfl⟩
     buffers := ⟨fun i _ => zeroBlock_get i, fun i _ => zeroBlock_get i⟩ },
   rfl⟩

end Sys2Proof.Tests
end

section
/-! SUPPORT. The host's side of the port apart from the spec's state: what the model's operations do to the
one does not depend on the other. And what the checks do not look at. -/

namespace Sys2Proof.Machine

/-- The state `s` with the host's side of `p`: the four fields that are the model's own. -/
def withPort (p s : State) : State :=
  { s with rdata := p.rdata, draws := p.draws, program := p.program, turns := p.turns }

@[simp] theorem withPort_blk (p s : State) : (withPort p s).blk = s.blk := rfl
@[simp] theorem withPort_key (p s : State) : (withPort p s).key = s.key := rfl
@[simp] theorem withPort_rk (p s : State) : (withPort p s).rk = s.rk := rfl
@[simp] theorem withPort_keyCnt (p s : State) : (withPort p s).keyCnt = s.keyCnt := rfl
@[simp] theorem withPort_blkCnt (p s : State) : (withPort p s).blkCnt = s.blkCnt := rfl
@[simp] theorem withPort_arg0 (p s : State) : (withPort p s).arg0 = s.arg0 := rfl
@[simp] theorem withPort_arg1 (p s : State) : (withPort p s).arg1 = s.arg1 := rfl
@[simp] theorem withPort_result (p s : State) : (withPort p s).result = s.result := rfl
@[simp] theorem withPort_done (p s : State) : (withPort p s).done = s.done := rfl
@[simp] theorem withPort_schedValid (p s : State) : (withPort p s).schedValid = s.schedValid := rfl
@[simp] theorem withPort_coll (p s : State) : (withPort p s).coll = s.coll := rfl
@[simp] theorem withPort_errcode (p s : State) : (withPort p s).errcode = s.errcode := rfl
@[simp] theorem withPort_ie (p s : State) : (withPort p s).ie = s.ie := rfl
@[simp] theorem withPort_phase (p s : State) : (withPort p s).phase = s.phase := rfl
@[simp] theorem withPort_pendOp (p s : State) : (withPort p s).pendOp = s.pendOp := rfl
@[simp] theorem withPort_uidx (p s : State) : (withPort p s).uidx = s.uidx := rfl
@[simp] theorem withPort_rdata (p s : State) : (withPort p s).rdata = p.rdata := rfl
@[simp] theorem withPort_draws (p s : State) : (withPort p s).draws = p.draws := rfl
@[simp] theorem withPort_program (p s : State) : (withPort p s).program = p.program := rfl
@[simp] theorem withPort_turns (p s : State) : (withPort p s).turns = p.turns := rfl

@[simp] theorem commandCheck_withPort (i : Instr) (p s : State) :
    commandCheck i (withPort p s) = commandCheck i s := by
  cases i <;> rfl

@[simp] theorem commandCheck_dropWrite (i : Instr) (s : State) :
    commandCheck i (dropWrite s) = commandCheck i s := by
  cases i <;> rfl

@[simp] theorem commandCheck_uidx (i : Instr) (s : State) (n : Nat) :
    commandCheck i { s with uidx := n } = commandCheck i s := by
  cases i <;> rfl

theorem commandEffect_withPort (i : Instr) (p s : State) :
    commandEffect i (withPort p s) = withPort p (commandEffect i s) := by
  cases i with
  | addRoundKey =>
    have hsel : selectedRoundKey (withPort p s) = selectedRoundKey s := rfl
    simp only [commandEffect, hsel]
    cases selectedRoundKey s <;> rfl
  | _ => rfl

theorem idleWrite_withPort (l : Location) (v : Byte) (p s : State) :
    idleWrite l v (withPort p s) = withPort p (idleWrite l v s) := by
  cases l <;> rfl

end Sys2Proof.Machine
end

section
/-! SUPPORT. The opcode of a decoded command, the transaction of a word, and when a micro-step is due. -/

namespace Sys2Proof.Machine

/-- What decodes from a command byte is encoded as that byte. -/
theorem encode_of_decodeCommand {op : Byte} {i : Instr} (h : decodeCommand op = .ok i) :
    encode i = .command op := by
  have hrow : ∀ r ∈ opcodeMap, encode r.2 = .command r.1 := by decide
  exact hrow _ (decodeCommand_mem h)

theorem isCommand_of_decodeCommand {op : Byte} {i : Instr} (h : decodeCommand op = .ok i) :
    isCommand i = true := by
  have hrow : ∀ r ∈ opcodeMap, isCommand r.2 = true := by decide
  exact hrow _ (decodeCommand_mem h)

/-- A pending command is known by its opcode. -/
theorem pendOp_eq_of_decodeCommand {op : Byte} {i : Instr} {b : Byte} (h : decodeCommand op = .ok i)
    (hb : encode i = .command b) : op = b := by
  rw [encode_of_decodeCommand h] at hb
  exact Encoded.command.inj hb

theorem decodeTransaction_cases (w : BitVec 17) :
    (∃ a, decodeTransaction w = .rd a) ∨ (∃ a v, decodeTransaction w = .wr a v) := by
  unfold decodeTransaction
  split
  · exact .inr ⟨_, _, rfl⟩
  · exact .inl ⟨_, rfl⟩

/-- A micro-step is due while BUSY, below the end of the sequence of a command whose checks pass. -/
theorem microReady_iff {s : State} :
    microReady s = true ↔ s.phase = .busy ∧
      ∃ i, decodeCommand s.pendOp = .ok i ∧ commandCheck i s = none ∧ s.uidx < sequenceLength i := by
  unfold microReady
  cases s.phase with
  | idle => simp
  | busy => cases decodeCommand s.pendOp <;> simp

@[simp] theorem microReady_withPort (p s : State) : microReady (withPort p s) = microReady s := by
  rw [Bool.eq_iff_iff]
  simp [microReady_iff]

theorem exec_wr_busy {s : State} (h : s.phase = .busy) (a v : Byte) :
    exec (.wr a v) s = .next (dropWrite s) := by
  simp [exec, execWr, h]

theorem exec_wr_idle {s : State} (h : s.phase = .idle) (a v : Byte) :
    exec (.wr a v) s = .next (idleWrite (locate a) v s) := by
  simp [exec, execWr, h]

/-- A read touches the host's side of the port alone. -/
theorem exec_rd_withPort (a : Byte) (s : State) : ∃ p, exec (.rd a) s = .next (withPort p s) := by
  refine ⟨returnByte (memRead a s) (if readDraws a s then countDraw s else s), ?_⟩
  change execRd a s = _
  unfold execRd
  split <;> rfl

theorem repeatPoll_withPort (q s : State) : ∃ p, repeatPoll (withPort q s) = withPort p s := by
  rcases repeatPoll_cases (withPort q s) with h | h
  · exact ⟨q, h⟩
  · exact ⟨{ q with program := .poll :: q.program }, h⟩

theorem hostInReset_withPort (q s : State) : ∃ p, hostInReset (withPort q s) = withPort p s := by
  unfold hostInReset
  split
  · exact ⟨q, rfl⟩
  · rename_i rest _
    split
    · exact ⟨{ q with program := rest }, rfl⟩
    · exact ⟨returnByte (Config.freeByte q.draws) (countDraw { q with program := rest }), rfl⟩
  · rename_i rest _
    exact repeatPoll_withPort (returnByte (Config.freeByte q.draws) (countDraw { q with program := rest })) s

end Sys2Proof.Machine
end

section
/-! SUPPORT. What one step of the machine can do to the spec's state, whoever moves. -/

namespace Sys2Proof.Machine

/-- `Move s u`: the agent whose turn it is in `s` can take the spec's state to that of `u`; the host's side of
the port is left out (00_scope.md R8). -/
inductive Move (s : State) : State → Prop
  /-- A read, or a turn without work. -/
  | stay : Move s s
  /-- A host write while idle (45_host_port.md R261). -/
  | write {w : BitVec 17} {rest : List HostItem} {a v : Byte} (turn : nextTurn s = .host)
      (phase : s.phase = .idle) (program : s.program = .word w :: rest)
      (word : decodeTransaction w = .wr a v) : Move s (idleWrite (locate a) v s)
  /-- A host write while BUSY (45_host_port.md R261). -/
  | drop (turn : nextTurn s = .host) (phase : s.phase = .busy) : Move s (dropWrite s)
  /-- A micro-step of the sequencer (44_cipher_engine.md R233). -/
  | micro (turn : nextTurn s = .micro) (ready : microReady s = true) :
      Move s { s with uidx := s.uidx + 1 }
  /-- The completion of a command whose checks pass (45_host_port.md R272). -/
  | finish {i : Instr} (turn : nextTurn s = .core) (phase : s.phase = .busy)
      (pending : decodeCommand s.pendOp = .ok i) (checked : commandCheck i s = none) :
      Move s (complete .ok (commandEffect i s))
  /-- The completion of a command that raises an error (60_exceptions.md R287). -/
  | fail {i : Instr} {e : ErrCode} (turn : nextTurn s = .core) (phase : s.phase = .busy)
      (pending : decodeCommand s.pendOp = .ok i) (failed : commandCheck i s = some e) : Move s (raise e s)
  /-- The completion of a reserved opcode (60_exceptions.md R284). -/
  | reserved {d : DecodeError} (turn : nextTurn s = .core) (phase : s.phase = .busy)
      (pending : decodeCommand s.pendOp = .error d) : Move s (raise .illegalCommand s)
  /-- An edge with `rst` = 1 (70_reset_and_hazards.md R310). -/
  | reset {b : Bool} (turn : nextTurn s = .rst b) : Move s State.reset

/-- A host write is dropped while BUSY and takes effect while idle. -/
theorem move_of_write (p : State) {s : State} {w : BitVec 17} {rest : List HostItem} {a v : Byte}
    (turn : nextTurn s = .host) (program : s.program = .word w :: rest) (word : decodeTransaction w = .wr a v) :
    ∃ u, Move s u ∧ exec (.wr a v) (withPort p s) = .next (withPort p u) := by
  cases hph : s.phase with
  | busy => exact ⟨_, .drop turn hph, exec_wr_busy (s := withPort p s) hph a v⟩
  | idle =>
    refine ⟨_, .write turn hph program word, ?_⟩
    rw [← idleWrite_withPort]
    exact exec_wr_idle (s := withPort p s) hph a v

theorem move_of_hostStep (p : State) {s t : State} (turn : nextTurn s = .host) (hp : p.program = s.program)
    (h : hostStep (withPort p s) = .next t) : ∃ q u, Move s u ∧ t = withPort q u := by
  rcases hostStep_cases (withPort p s) with ⟨-, he⟩ | ⟨w, rest, hw, he⟩ | ⟨rest, r, -, hr, he⟩
    <;> rw [he] at h
  · cases h
    exact ⟨p, s, .stay, rfl⟩
  · change exec (decodeTransaction w) (withPort { p with program := rest } s) = _ at h
    have hprog : s.program = .word w :: rest := hp ▸ hw
    rcases decodeTransaction_cases w with ⟨a, hd⟩ | ⟨a, v, hd⟩ <;> rw [hd] at h
    · obtain ⟨q, hq⟩ := exec_rd_withPort a (withPort { p with program := rest } s)
      cases hq ▸ h
      exact ⟨q, s, .stay, rfl⟩
    · obtain ⟨u, hmove, hu⟩ := move_of_write { p with program := rest } turn hprog hd
      cases hu ▸ h
      exact ⟨_, u, hmove, rfl⟩
  · rw [fetch_pollWord] at hr
    obtain ⟨q, hq⟩ := exec_rd_withPort 0x01 (withPort { p with program := rest } s)
    cases hq.symm.trans hr
    obtain ⟨q', hq'⟩ := repeatPoll_withPort q s
    cases h
    exact ⟨q', s, .stay, hq'⟩

theorem move_of_coreStep (p : State) {s t : State} (turn : nextTurn s = .core)
    (h : coreStep (withPort p s) = .next t) : ∃ q u, Move s u ∧ t = withPort q u := by
  rcases coreStep_cases (withPort p s) with ⟨-, he⟩ | ⟨hph, i, hd, he⟩ | ⟨hph, e, hd, he⟩ <;> rw [he] at h
  · cases h
    exact ⟨p, s, .stay, rfl⟩
  · rw [exec_eq_runCommand (isCommand_of_decodeCommand hd)] at h
    rcases runCommand_cases (commandCheck i (withPort p s)) (commandEffect i) (withPort p s)
      with ⟨e, hc, hr⟩ | ⟨hc, hr⟩ <;> rw [hr] at h <;> rw [commandCheck_withPort] at hc
    · cases h
      exact ⟨p, _, .fail turn hph hd hc, rfl⟩
    · rw [commandEffect_withPort] at h
      cases h
      exact ⟨p, _, .finish turn hph hd hc, rfl⟩
  · cases h
    exact ⟨p, _, .reserved turn hph hd, rfl⟩

theorem move_of_microStep (p : State) {s : State} (turn : nextTurn s = .micro) :
    ∃ q u, Move s u ∧ microStep (withPort p s) = withPort q u := by
  rcases microStep_cases (withPort p s) with ⟨hr, he⟩ | ⟨-, he⟩
  · exact ⟨p, _, .micro turn (microReady_withPort p s ▸ hr), he⟩
  · exact ⟨p, s, .stay, he⟩

theorem move_of_resetStep (p : State) {s : State} {b : Bool} (turn : nextTurn s = .rst b) :
    ∃ q u, Move s u ∧ resetStep b (withPort p s) = withPort q u := by
  cases b with
  | false => exact ⟨p, _, .reset turn, rfl⟩
  | true =>
    obtain ⟨q, hq⟩ := hostInReset_withPort p State.reset
    exact ⟨q, _, .reset turn, hq⟩

/-- Every step is a move, with some change of the host's side of the port. -/
theorem move_of_step {s t : State} (h : step s = .next t) : ∃ p u, Move s u ∧ t = withPort p u := by
  obtain ⟨p, hp, h⟩ : ∃ p, p.program = s.program ∧ turnStep (nextTurn s) (withPort p s) = .next t :=
    ⟨{ s with turns := s.turns.tail }, rfl, h⟩
  cases turn : nextTurn s with
  | host =>
    rw [turn] at h
    exact move_of_hostStep p turn hp h
  | core =>
    rw [turn] at h
    exact move_of_coreStep p turn h
  | micro =>
    rw [turn] at h
    cases h
    exact move_of_microStep p turn
  | rst b =>
    rw [turn] at h
    cases h
    exact move_of_resetStep p turn

end Sys2Proof.Machine
end

section
/-! SUPPORT. The frames of a checked command's effect and of a write while idle. -/

namespace Sys2Proof.Machine

/-- A command whose checks pass writes RESULT alone, or STATE alone with a full block; the others are EXPAND and
the three clears. -/
theorem commandEffect_cases {i : Instr} {s : State} (h : commandCheck i s = none) :
    (∃ r, commandEffect i s = { s with result := r }) ∨
    (s.blkCnt = 16 ∧ ∃ b, commandEffect i s = { s with blk := b }) ∨
    i = .expand ∨ i = .clearAll ∨ i = .clearKey ∨ i = .clearBlk := by
  cases i with
  | expand | clearAll | clearKey | clearBlk => simp
  | nop | rd _ | wr _ _ => exact .inl ⟨s.result, rfl⟩
  | gfMul | sbox | invSbox | rcon => exact .inl ⟨_, rfl⟩
  | subBytes | invSubBytes | shiftRows | invShiftRows | mixColumns | invMixColumns =>
    exact .inr (.inl ⟨checkBlock_eq_none.mp h, _, rfl⟩)
  | encrypt | decrypt =>
    exact .inr (.inl ⟨checkBlock_eq_none.mp (Option.or_eq_none_iff.mp h).1, _, rfl⟩)
  | addRoundKey =>
    refine .inr (.inl ⟨checkBlock_eq_none.mp (Option.or_eq_none_iff.mp h).1, ?_⟩)
    simp only [commandEffect]
    cases selectedRoundKey s with
    | some k => exact ⟨_, rfl⟩
    | none => exact ⟨s.blk, rfl⟩

/-- Of the checked commands only EXPAND and CLEAR_ALL write RK or SCHED_VALID (10_state.md R36). -/
theorem commandEffect_schedule {i : Instr} {s : State} (h : commandCheck i s = none) (hx : i ≠ .expand)
    (ha : i ≠ .clearAll) :
    (commandEffect i s).rk = s.rk ∧ (commandEffect i s).schedValid = s.schedValid := by
  rcases commandEffect_cases h with ⟨r, he⟩ | ⟨-, b, he⟩ | rfl | rfl | rfl | rfl
  · simp [he]
  · simp [he]
  · exact absurd rfl hx
  · exact absurd rfl ha
  · exact ⟨rfl, rfl⟩
  · exact ⟨rfl, rfl⟩

/-- Of the checked commands only CLEAR_KEY and CLEAR_ALL write KEY or KEY_CNT (10_state.md R35, R37). -/
theorem commandEffect_key {i : Instr} {s : State} (h : commandCheck i s = none) (hk : i ≠ .clearKey)
    (ha : i ≠ .clearAll) :
    (commandEffect i s).key = s.key ∧ (commandEffect i s).keyCnt = s.keyCnt := by
  rcases commandEffect_cases h with ⟨r, he⟩ | ⟨-, b, he⟩ | rfl | rfl | rfl | rfl
  · simp [he]
  · simp [he]
  · exact ⟨rfl, rfl⟩
  · exact absurd rfl ha
  · exact absurd rfl hk
  · exact ⟨rfl, rfl⟩

/-- A write while idle reaches KEY or KEY_CNT at KEY_IN alone (10_state.md R35). -/
theorem idleWrite_key {l : Location} (h : l ≠ .keyIn) (v : Byte) (s : State) :
    (idleWrite l v s).key = s.key ∧ (idleWrite l v s).keyCnt = s.keyCnt := by
  cases l with
  | keyIn => exact absurd rfl h
  | _ => exact ⟨rfl, rfl⟩

theorem locate_eq_keyIn {a : Byte} (h : locate a = .keyIn) : a = 0x09 := by
  revert a
  decide

end Sys2Proof.Machine
end

section
/-! SUPPORT. Each part of the invariant under the moves of the agents, and the invariant of State.reset. -/

namespace Sys2Proof.Machine

@[simp] theorem zeroSchedule_get (r : Fin 11) : zeroSchedule.get r = zeroBlock := by
  simp [zeroSchedule, Vector.get_eq_getElem]

/-- The schedule's part of the invariant is about RK and SCHED_VALID alone. -/
theorem ScheduleOk.congr {s t : State} (h : ScheduleOk s)
    (same : t.rk = s.rk ∧ t.schedValid = s.schedValid) : ScheduleOk t := by
  obtain ⟨hrk, hv⟩ := same
  exact ⟨fun hb => hrk ▸ h.valid (hv ▸ hb), fun hb => hrk.trans (h.invalid (hv ▸ hb))⟩

theorem ScheduleOk.of_zero {s : State} (hrk : s.rk = zeroSchedule) (hv : s.schedValid = false) :
    ScheduleOk s :=
  ⟨fun hb => absurd (hv.symm.trans hb) Bool.false_ne_true, fun _ => hrk⟩

/-- An idle sequencer at UIDX 0 is in order. -/
theorem SequencerOk.of_idle {s : State} (hp : s.phase = .idle) (hu : s.uidx = 0) : SequencerOk s where
  idle_zero _ := hu
  busy_done hb := by simp [hp] at hb
  busy_errcode hb := by simp [hp] at hb
  moved hm := by simp [hu] at hm

/-- Storing a byte and counting it keeps a buffer zero beyond its count (45_host_port.md R262). -/
theorem storeAt_tail {b : Block} {cnt : Byte} (h : ∀ i : Fin 16, cnt.toNat ≤ i.val → b.get i = 0x00)
    (v : Byte) (i : Fin 16) (hi : (bumpCount cnt).toNat ≤ i.val) : (storeAt b cnt v).get i = 0x00 := by
  rw [bumpCount_toNat] at hi
  rw [storeAt_get, if_neg (by omega)]
  exact h i (by omega)

theorem idleWrite_errcodeLegal {s : State} (h : ErrcodeLegal s) (l : Location) (v : Byte) :
    ErrcodeLegal (idleWrite l v s) := by
  cases l with
  | cmd => exact ⟨.ok, rfl⟩
  | _ => exact h

theorem idleWrite_sequencerOk {s : State} (hp : s.phase = .idle) (hu : s.uidx = 0) (l : Location) (v : Byte) :
    SequencerOk (idleWrite l v s) := by
  cases l with
  | cmd => exact ⟨fun _ => rfl, fun _ => rfl, fun _ => rfl, fun hm => absurd hm (Nat.lt_irrefl 0)⟩
  | _ => exact .of_idle hp hu

theorem idleWrite_buffersOk {s : State} (h : BuffersOk s) (l : Location) (v : Byte) :
    BuffersOk (idleWrite l v s) := by
  cases l with
  | keyIn => exact ⟨storeAt_tail h.key_tail v, h.blk_tail⟩
  | blkIn => exact ⟨h.key_tail, storeAt_tail h.blk_tail v⟩
  | _ => exact ⟨h.key_tail, h.blk_tail⟩

theorem commandEffect_scheduleOk {i : Instr} {s : State} (h : ScheduleOk s) (hc : commandCheck i s = none) :
    ScheduleOk (commandEffect i s) := by
  by_cases hx : i = .expand
  · subst hx
    exact ⟨fun _ => ⟨s.key, rfl⟩, fun hv => absurd hv Bool.true_eq_false.mp⟩
  by_cases ha : i = .clearAll
  · subst ha
    exact .of_zero rfl rfl
  exact h.congr (commandEffect_schedule hc hx ha)

theorem commandEffect_buffersOk {i : Instr} {s : State} (h : BuffersOk s) (hc : commandCheck i s = none) :
    BuffersOk (commandEffect i s) := by
  rcases commandEffect_cases hc with ⟨r, he⟩ | ⟨hfull, b, he⟩ | rfl | rfl | rfl | rfl
  · exact he ▸ ⟨h.key_tail, h.blk_tail⟩
  · -- a full block has no byte beyond its count
    refine he ▸ ⟨h.key_tail, fun i hi => ?_⟩
    simp only [hfull, BitVec.reduceToNat] at hi
    omega
  · exact ⟨h.key_tail, h.blk_tail⟩
  · exact ⟨fun i _ => zeroBlock_get i, fun i _ => zeroBlock_get i⟩
  · exact ⟨fun i _ => zeroBlock_get i, h.blk_tail⟩
  · exact ⟨h.key_tail, fun i _ => zeroBlock_get i⟩

/-- The host's side of the port has no part in the invariant. -/
theorem Inv.withPort {s : State} (h : Inv s) (p : State) : Inv (withPort p s) where
  errcode := h.errcode
  sequencer :=
    { idle_zero := h.sequencer.idle_zero
      busy_done := h.sequencer.busy_done
      busy_errcode := h.sequencer.busy_errcode
      moved := by simpa using h.sequencer.moved }
  schedule := h.schedule.congr ⟨rfl, rfl⟩
  buffers := ⟨h.buffers.key_tail, h.buffers.blk_tail⟩

theorem Inv.idleWrite {s : State} (h : Inv s) (hp : s.phase = .idle) (l : Location) (v : Byte) :
    Inv (idleWrite l v s) where
  errcode := idleWrite_errcodeLegal h.errcode l v
  sequencer := idleWrite_sequencerOk hp (h.sequencer.idle_zero hp) l v
  schedule :=
    have ⟨hrk, hv, _⟩ := idleWrite_frame l v s
    h.schedule.congr ⟨hrk, hv⟩
  buffers := idleWrite_buffersOk h.buffers l v

theorem Inv.dropWrite {s : State} (h : Inv s) : Inv (dropWrite s) where
  errcode := h.errcode
  sequencer :=
    { idle_zero := h.sequencer.idle_zero
      busy_done := h.sequencer.busy_done
      busy_errcode := h.sequencer.busy_errcode
      moved := by simpa using h.sequencer.moved }
  schedule := h.schedule.congr ⟨rfl, rfl⟩
  buffers := ⟨h.buffers.key_tail, h.buffers.blk_tail⟩

/-- A micro-step stays within the sequence of the command in progress (44_cipher_engine.md R233). -/
theorem Inv.micro {s : State} (h : Inv s) (hr : microReady s = true) :
    Inv { s with uidx := s.uidx + 1 } := by
  obtain ⟨hbusy, i, hd, hc, hu⟩ := microReady_iff.mp hr
  exact {
    errcode := h.errcode
    sequencer :=
      { idle_zero := fun hi => by simp [hbusy] at hi
        busy_done := h.sequencer.busy_done
        busy_errcode := h.sequencer.busy_errcode
        moved := fun _ => ⟨i, hd, (commandCheck_uidx i s _).trans hc, hu⟩ }
    schedule := h.schedule.congr ⟨rfl, rfl⟩
    buffers := ⟨h.buffers.key_tail, h.buffers.blk_tail⟩ }

/-- A completion with any code, of a state whose schedule and buffers are in order. -/
theorem inv_complete {s : State} (hs : ScheduleOk s) (hb : BuffersOk s) (code : ErrCode) :
    Inv (complete code s) where
  errcode := ⟨code, rfl⟩
  sequencer := .of_idle rfl rfl
  schedule := hs.congr ⟨rfl, rfl⟩
  buffers := ⟨hb.key_tail, hb.blk_tail⟩

theorem inv_reset : Inv State.reset where
  errcode := ⟨.ok, rfl⟩
  sequencer := .of_idle rfl rfl
  schedule := .of_zero rfl rfl
  buffers := ⟨fun i _ => zeroBlock_get i, fun i _ => zeroBlock_get i⟩

/-- Every move keeps the invariant. -/
theorem Move.inv {s u : State} (m : Move s u) (h : Inv s) : Inv u := by
  cases m with
  | stay => exact h
  | write _ hp _ _ => exact h.idleWrite hp _ _
  | drop _ _ => exact h.dropWrite
  | micro _ hr => exact h.micro hr
  | finish _ _ _ hc =>
    exact inv_complete (commandEffect_scheduleOk h.schedule hc) (commandEffect_buffersOk h.buffers hc) .ok
  | fail _ _ _ _ | reserved _ _ _ => exact inv_complete h.schedule h.buffers _
  | reset _ => exact inv_reset

end Sys2Proof.Machine
end

section
/-! SUPPORT. The bits of STATUS, and `irq` at acceptance. -/

namespace Sys2Proof.Machine

/-- The bits of a packed STATUS byte (45_host_port.md R260). -/
theorem packStatus_bits : ∀ coll schedValid err done busy : Bool,
    (packStatus coll schedValid err done busy)[0] = busy ∧
    (packStatus coll schedValid err done busy)[1] = done ∧
    (packStatus coll schedValid err done busy)[2] = err ∧
    (packStatus coll schedValid err done busy)[3] = schedValid ∧
    (packStatus coll schedValid err done busy)[4] = coll ∧
    (packStatus coll schedValid err done busy)[5] = false ∧
    (packStatus coll schedValid err done busy)[6] = false ∧
    (packStatus coll schedValid err done busy)[7] = false := by
  decide

theorem busyBit_eq_decide (s : State) : busyBit s = decide (s.phase = .busy) := by
  simp [busyBit, Bool.beq_eq_decide_eq]

theorem errBit_eq_decide (s : State) : errBit s = decide (s.errcode ≠ 0x00) := by
  simp [errBit, bne, Bool.beq_eq_decide_eq]

/-- An acceptance clears DONE, so `irq` falls (45_host_port.md R267). -/
theorem irq_accept (v : Byte) (s : State) : irq (accept v s) = false := rfl

end Sys2Proof.Machine
end

section
/-! The state's obligations: the invariant, the micro-steps, who may change the schedule and the key, STATUS, and
the reset values. -/

namespace Sys2Proof.Machine

/-- Settles O59: a step is a move with a change of the host's side of the port, and both keep the invariant. -/
theorem everyStepKeepsTheInvariant : Obligations.EveryStepKeepsTheInvariant := by
  intro s t hinv hstep
  obtain ⟨p, u, hmove, rfl⟩ := move_of_step hstep
  exact (hmove.inv hinv).withPort p

/-- Settles O58. -/
theorem invariantHoldsAtReset : Obligations.InvariantHoldsAtReset := inv_reset

/-- Settles O8: the sequencer's turn is `microStep`, and `microReady_iff` says when it moves. -/
theorem microTurnCountsUidxUpByOne : Obligations.MicroTurnCountsUidxUpByOne := by
  intro s ts i hturns hbusy hdec
  have hstep : step s = .next (microStep { s with turns := ts }) := by
    rw [step_eq, nextTurn_cons hturns, hturns]
    rfl
  have hready : microReady { s with turns := ts } = true ↔
      commandCheck i s = none ∧ s.uidx < sequenceLength i := by
    change microReady (withPort { s with turns := ts } s) = true ↔ _
    rw [microReady_withPort, microReady_iff, show decodeCommand s.pendOp = .ok i from hdec]
    simp [hbusy]
  rw [hstep]
  rcases microStep_cases { s with turns := ts } with ⟨hr, he⟩ | ⟨hr, he⟩ <;> rw [he]
  · obtain ⟨hc, hu⟩ := hready.mp hr
    exact ⟨fun _ _ => rfl, fun hstop => absurd hstop (by simp [hc, hu])⟩
  · exact ⟨fun hc hu => by simp [hready.mpr ⟨hc, hu⟩] at hr, fun _ => rfl⟩

/-- Settles O50, move by move; among the completions by the frame of the commands' effects. -/
theorem onlyExpandClearAllAndResetChangeTheSchedule :
    Obligations.OnlyExpandClearAllAndResetChangeTheSchedule := by
  intro s t hstep hchange
  obtain ⟨p, u, hmove, rfl⟩ := move_of_step hstep
  simp only [withPort_rk, withPort_schedValid] at hchange
  cases hmove with
  | stay | drop _ _ | micro _ _ | fail _ _ _ _ | reserved _ _ _ => simp [raise] at hchange
  | @write _ _ a v _ _ _ _ =>
    obtain ⟨hrk, hv, -⟩ := idleWrite_frame (locate a) v s
    simp [hrk, hv] at hchange
  | @finish i hturn hbusy hdec hcheck =>
    refine .inl ⟨hturn, hbusy, ?_⟩
    by_cases hx : i = .expand
    · exact .inl (pendOp_eq_of_decodeCommand hdec (hx ▸ rfl))
    by_cases ha : i = .clearAll
    · exact .inr (pendOp_eq_of_decodeCommand hdec (ha ▸ rfl))
    simp [commandEffect_schedule hcheck hx ha] at hchange
  | reset hturn => exact .inr ⟨_, hturn⟩

/-- Settles O51, move by move; among the writes by the location, among the completions by the command. -/
theorem onlyKeyInClearsAndResetChangeTheKey : Obligations.OnlyKeyInClearsAndResetChangeTheKey := by
  intro s t hstep hchange
  obtain ⟨p, u, hmove, rfl⟩ := move_of_step hstep
  simp only [withPort_key, withPort_keyCnt] at hchange
  cases hmove with
  | stay | drop _ _ | micro _ _ | fail _ _ _ _ | reserved _ _ _ => simp [raise] at hchange
  | @write w rest a v hturn hidle hprog hword =>
    by_cases hl : locate a = .keyIn
    · exact .inl ⟨hturn, hidle, w, rest, v, hprog, locate_eq_keyIn hl ▸ hword⟩
    · simp [idleWrite_key hl v s] at hchange
  | @finish i hturn hbusy hdec hcheck =>
    refine .inr (.inl ⟨hturn, hbusy, ?_⟩)
    by_cases hk : i = .clearKey
    · exact .inl (pendOp_eq_of_decodeCommand hdec (hk ▸ rfl))
    by_cases ha : i = .clearAll
    · exact .inr (pendOp_eq_of_decodeCommand hdec (ha ▸ rfl))
    simp [commandEffect_key hcheck hk ha] at hchange
  | reset hturn => exact .inr (.inr ⟨_, hturn⟩)

/-- Settles O47: the packed bits, and the acceptance that a write to CMD is. -/
theorem statusBitsAreTheFields : Obligations.StatusBitsAreTheFields := by
  intro s
  obtain ⟨h0, h1, h2, h3, h4, h5, h6, h7⟩ :=
    packStatus_bits s.coll s.schedValid (errBit s) s.done (busyBit s)
  exact ⟨h0.trans (busyBit_eq_decide s), h1, h2.trans (errBit_eq_decide s), h3, h4, h5, h6, h7, rfl,
    fun v hidle => ⟨accept v s, exec_wr_idle hidle 0x00 v, irq_accept v s⟩⟩

/-- Settles O56: the blocks byte by byte, the other registers by their reset values. -/
theorem resetLeavesTheStatedValues : Obligations.ResetLeavesTheStatedValues := by
  have hblocks (i : Fin 16) : State.reset.blk.get i = 0x00 ∧ State.reset.key.get i = 0x00 :=
    ⟨zeroBlock_get i, zeroBlock_get i⟩
  have hschedule (r : Fin 11) (i : Fin 16) : (State.reset.rk.get r).get i = 0x00 := by
    change (zeroSchedule.get r).get i = 0x00
    simp
  exact ⟨hblocks, hschedule, rfl, rfl, rfl, rfl, rfl, rfl, rfl, rfl, rfl, rfl, rfl, rfl⟩

end Sys2Proof.Machine
end

section
/-! SUPPORT. The address map in both directions, and a read while idle by the location it names. -/

namespace Sys2Proof.Machine

/-- The address that a register symbol stands for names that register (30_encoding.md R108). -/
theorem locate_of_addressOf {l : Location} {a : Byte} (h : addressOf l = some a) : locate a = l := by
  cases l with
  | state i | key i =>
    cases h
    revert i
    decide
  | rk r i =>
    cases h
    revert r i
    decide
  | reserved => cases h
  | _ =>
    cases h
    rfl

/-- Apart from the reserved addresses, an address is the one its register stands for (20_memory.md R71). -/
theorem addressOf_of_locate {l : Location} {a : Byte} (h : locate a = l) (hl : l ≠ .reserved) :
    addressOf l = some a := by
  subst h
  revert a
  decide

theorem locate_eq_reserved {a : Byte} (h : (0x0B ≤ a.toNat ∧ a.toNat ≤ 0x0F) ∨ 0xE0 ≤ a.toNat) :
    locate a = .reserved := by
  revert a
  decide

theorem ctrlByte_eq (s : State) : ctrlByte s = if s.ie then 0x01 else 0x00 := by
  cases h : s.ie <;> simp [ctrlByte, bitAt, h]

/-- A read while idle returns the value of the location it names and draws nothing (45_host_port.md R260). -/
theorem exec_rd_idle {s : State} (h : s.phase = .idle) {a : Byte} {l : Location} (hl : locate a = l) :
    exec (.rd a) s = .next { s with rdata := some (value l s) } := by
  subst hl
  change execRd a s = _
  simp [execRd, memRead_idle h, readDraws, unspecifiedBits_idle h, returnByte]

end Sys2Proof.Machine
end

section
/-! The memory's obligations: the read column of the address map, and the writes that it ignores. -/

namespace Sys2Proof.Machine

/-- Settles O11: an address with a symbol names that register, the others are reserved. -/
theorem idleReadsFollowTheAddressMap : Obligations.IdleReadsFollowTheAddressMap := by
  intro s hidle
  have hread (l : Location) {a : Byte} (ha : addressOf l = some a) :
      exec (.rd a) s = .next { s with rdata := some (value l s) } :=
    exec_rd_idle hidle (locate_of_addressOf ha)
  exact ⟨hread .cmd rfl, hread .status rfl, hread .errcode rfl, ctrlByte_eq s ▸ hread .ctrl rfl,
    hread .keyCnt rfl, hread .blkCnt rfl, hread .arg0 rfl, hread .arg1 rfl, hread .result rfl,
    hread .keyIn rfl, hread .blkIn rfl, fun i => hread (.state i) rfl, fun i => hread (.key i) rfl,
    fun r i => hread (.rk r i) rfl, fun _ ha => exec_rd_idle hidle (locate_eq_reserved ha)⟩

/-- Settles O22: `idleWrite` has an effect at seven locations alone, and each of them has one address. -/
theorem otherWritesAreIgnored : Obligations.OtherWritesAreIgnored := by
  intro a v s hidle hcmd hstatus hctrl harg0 harg1 hkeyIn hblkIn
  rw [exec_wr_idle hidle]
  cases hl : locate a with
  | cmd | status | ctrl | arg0 | arg1 | keyIn | blkIn =>
    cases addressOf_of_locate hl nofun
    contradiction
  | errcode | keyCnt | blkCnt | result | state _ | key _ | rk _ _ | reserved => rfl

end Sys2Proof.Machine
end

section
/-! SUPPORT. The transaction word in both directions, and the instruction behind an encoding in both directions. -/

namespace Sys2Proof

/-- A word is the word of its three fields (30_encoding.md R100). -/
theorem eq_transactionWord (w : BitVec 17) :
    w = transactionWord w[16] (w.extractLsb' 8 8) (w.extractLsb' 0 8) := by
  refine BitVec.eq_of_getLsbD_eq fun i hi => ?_
  rw [transactionWord, BitVec.getLsbD_append, BitVec.getLsbD_append]
  by_cases hdata : i < 8
  · simp [hdata]
  by_cases haddr : i - 8 < 8
  · simp [hdata, haddr, show 8 + (i - 8) = i by omega]
  · obtain rfl : i = 16 := by omega
    simp

@[simp] theorem decodeTransaction_write (a v : Byte) :
    decodeTransaction (transactionWord true a v) = .wr a v := by
  simp [decodeTransaction]

/-- The data byte of a read is ignored (30_encoding.md R106, R111; log 7). -/
@[simp] theorem decodeTransaction_read (a d : Byte) :
    decodeTransaction (transactionWord false a d) = .rd a := by
  simp [decodeTransaction]

theorem decodeCommand_of_encode {i : Instr} {op : Byte} (h : encode i = .command op) :
    decodeCommand op = .ok i := by
  cases i with
  | rd a | wr a v => cases h
  | _ =>
    cases h
    rfl

theorem decodeTransaction_of_encode {i : Instr} {w : BitVec 17} (h : encode i = .transaction w) :
    decodeTransaction w = i := by
  cases i with
  | rd a =>
    cases h
    exact decodeTransaction_read a 0x00
  | wr a v =>
    cases h
    exact decodeTransaction_write a v
  | _ => cases h

theorem decode_encode (i : Instr) : decode (encode i) = .ok i := by
  cases h : encode i with
  | command op => exact decodeCommand_of_encode h
  | transaction w => exact congrArg Except.ok (decodeTransaction_of_encode h)

/-- A word that decodes to a write is the encoding of that write; one that decodes to a read differs from the
read's encoding in the data byte at most. -/
theorem transaction_eq_of_decodeTransaction {w : BitVec 17} {i : Instr} (h : decodeTransaction w = i) :
    .transaction w = encode i ∨
      ∃ a d, i = .rd a ∧ Encoded.transaction w = .transaction (transactionWord false a d) := by
  subst h
  rw [eq_transactionWord w]
  cases w[16] with
  | true => exact .inl (by rw [decodeTransaction_write]; rfl)
  | false => exact .inr ⟨_, _, decodeTransaction_read _ _, rfl⟩

end Sys2Proof
end

section
/-! SUPPORT. The turn of the host, and the transaction of `poll`. -/

namespace Sys2Proof.Machine

theorem step_host {s : State} {ts : List Turn} (h : s.turns = .host :: ts) :
    step s = hostStep { s with turns := ts } := by
  rw [step_eq, nextTurn_cons h, h]
  rfl

theorem step_host_word {s : State} {ts : List Turn} {w : BitVec 17} {rest : List HostItem}
    (hturns : s.turns = .host :: ts) (hprog : s.program = .word w :: rest) :
    step s = exec (decodeTransaction w) { s with turns := ts, program := rest } := by
  simp only [step_host hturns, hostStep, hprog, fetchWord]

theorem step_host_poll {s t : State} {ts : List Turn} {rest : List HostItem}
    (hturns : s.turns = .host :: ts) (hprog : s.program = .poll :: rest)
    (hread : exec (.rd 0x01) { s with turns := ts, program := rest } = .next t) :
    step s = .next (repeatPoll t) := by
  simp only [step_host hturns, hostStep, hprog, fetch_pollWord, hread]

theorem repeatPoll_of_bit0_true {s : State} {v : Byte} (h : s.rdata = some v) (hv : v[0] = true) :
    repeatPoll s = { s with program := .poll :: s.program } := by
  simp [repeatPoll, h, hv]

theorem repeatPoll_of_bit0_false {s : State} {v : Byte} (h : s.rdata = some v) (hv : v[0] = false) :
    repeatPoll s = s := by
  simp [repeatPoll, h, hv]

/-- The read of a transaction and whether it counts a draw, as one update (45_host_port.md R260). -/
theorem exec_rd (a : Byte) (s : State) :
    exec (.rd a) s = .next { s with
      rdata := some (memRead a s), draws := if readDraws a s then s.draws + 1 else s.draws } := by
  change execRd a s = _
  unfold execRd
  split <;> rfl

theorem statusByte_bit0 (s : State) : (statusByte s)[0] = decide (s.phase = .busy) :=
  (packStatus_bits s.coll s.schedValid (errBit s) s.done (busyBit s)).1.trans (busyBit_eq_decide s)

/-- Of STATUS at most SCHED_VALID and COLL are unspecified (45_host_port.md R260). -/
theorem writeMask_status (i : Instr) :
    writeMask i .status = 0x00 ∨ writeMask i .status = 0x08 ∨ writeMask i .status = 0x18 := by
  cases i with
  | expand => exact .inr (.inl rfl)
  | clearAll => exact .inr (.inr rfl)
  | _ => exact .inl rfl

theorem unspecifiedBits_status (s : State) :
    unspecifiedBits .status s = 0x00 ∨ unspecifiedBits .status s = 0x08 ∨ unspecifiedBits .status s = 0x18 := by
  unfold unspecifiedBits
  split
  · exact .inl rfl
  · split
    · exact writeMask_status _
    · exact .inl rfl

theorem busyValue_status_bit0 {s : State} (h : s.phase = .busy) : (busyValue .status s)[0] = true := by
  simp only [busyValue]
  split
  · simp [statusByte_bit0, h]
  · exact (packStatus_bits s.coll s.schedValid false false true).1

/-- While BUSY a read of STATUS has bit 0 = 1, whatever the free byte (45_host_port.md R260). -/
theorem memRead_status_bit0 {s : State} (h : s.phase = .busy) : (memRead 0x01 s)[0] = true := by
  have hloc : locate 0x01 = .status := rfl
  have hbit := busyValue_status_bit0 h
  simp only [memRead, h, hloc]
  rcases unspecifiedBits_status s with hm | hm | hm <;> simp [hm, hbit]

theorem exec_rd_status_busy {s : State} (h : s.phase = .busy) :
    ∃ v d, v[0] = true ∧ exec (.rd 0x01) s = .next { s with rdata := some v, draws := d } :=
  ⟨_, _, memRead_status_bit0 h, exec_rd 0x01 s⟩

end Sys2Proof.Machine
end

section
/-! The encoding's obligations: decoding and encoding, the opcodes, host programs, and the host's turn. -/

namespace Sys2Proof.Machine

open Sys2Proof.Claims

/-- Settles O1: format by format; every word is the word of its fields. -/
theorem decodeAndEncodeAgree : Obligations.DecodeAndEncodeAgree := by
  refine ⟨fun i => ⟨decode_encode i, ?_⟩, fun e i h => ?_⟩
  · cases hi : encode i with
    | command op => simp [hostWord, hi, decode]
    | transaction w => simp [hostWord, hi, decode, decodeTransaction_of_encode hi]
  · cases e with
    | command op => exact .inl (encode_of_decodeCommand h).symm
    | transaction w => exact transaction_eq_of_decodeTransaction (Except.ok.inj h)

/-- Settles O6: while BUSY the byte read has bit 0 = 1, so `poll` is put back; while idle it is STATUS with
bit 0 = 0. -/
theorem pollRepeatsWhileBusy : Obligations.PollRepeatsWhileBusy := by
  intro s ts rest hturns hprog
  refine ⟨fun hbusy => ?_, fun hidle => ?_⟩
  · obtain ⟨v, d, hbit, hread⟩ := exec_rd_status_busy (s := { s with turns := ts, program := rest }) hbusy
    refine ⟨v, d, hbit, ?_⟩
    rw [step_host_poll hturns hprog hread, repeatPoll_of_bit0_true rfl hbit, hprog]
  · have hbit : (statusByte s)[0] = false := by simp [statusByte_bit0, hidle]
    have hread := exec_rd_idle (s := { s with turns := ts, program := rest }) hidle
      (locate_of_addressOf (l := .status) rfl)
    rw [step_host_poll hturns hprog hread, repeatPoll_of_bit0_false rfl hbit]
    rfl

/-- Settles O2: an opcode decodes exactly when the opcode map has a row for it; the reserved ones are counted by the
kernel. -/
theorem sampleWordsDecodeAndOthersAreReserved : Obligations.SampleWordsDecodeAndOthersAreReserved := by
  refine ⟨by decide, fun op => ?_, ?_⟩
  · have hrows : ∀ r ∈ opcodeMap, decodeCommand r.1 = .ok r.2 := by decide
    rw [show definedOpcodes = opcodeMap.map Prod.fst from rfl]
    constructor
    · rintro ⟨i, hi⟩
      exact List.mem_map_of_mem (decodeCommand_mem hi)
    · intro hop
      obtain ⟨r, hr, rfl⟩ := List.mem_map.mp hop
      exact ⟨r.2, hrows r hr⟩
  · decide +kernel

/-- Settles O3: the data bytes of `loadkey` and `loadblk` and the addresses of `readblk` and `readrk` one by one. -/
theorem pseudoInstructionsExpand : Obligations.PseudoInstructionsExpand :=
  ⟨fun _ _ => rfl, fun _ => rfl, fun _ => rfl, fun _ => rfl, rfl, fun _ => List.map_eq_flatMap,
    fun _ => List.map_eq_flatMap, fun _ => rfl, fun _ _ => rfl, rfl, fun _ => rfl⟩

/-- Settles O5: the turn's word is the one decoded, and the rest of the program stays. -/
theorem hostTurnRunsTheDecodedTransaction : Obligations.HostTurnRunsTheDecodedTransaction := by
  intro s ts w rest i hturns hprog hdec
  rw [step_host_word hturns hprog, Except.ok.inj hdec]

end Sys2Proof.Machine
end

section
/-! SUPPORT. What a command answers when its checks pass and when one fails; when RCON's fails. -/

namespace Sys2Proof.Machine

/-- A command whose checks pass performs its effect and completes with OK (45_host_port.md R272). -/
theorem exec_of_commandCheck_none {i : Instr} {s : State} (hi : isCommand i = true)
    (hc : commandCheck i s = none) : exec i s = .next (Claims.finished 0x00 (commandEffect i s)) := by
  rw [exec_eq_runCommand hi, hc, runCommand_passed]
  rfl

/-- A command with a failed check completes with its code and does nothing else (60_exceptions.md R287). -/
theorem exec_of_commandCheck_some {i : Instr} {s : State} {e : ErrCode} (hi : isCommand i = true)
    (hc : commandCheck i s = some e) : exec i s = .next (Claims.finished e.byte s) := by
  rw [exec_eq_runCommand hi, hc, runCommand_failed]
  rfl

theorem checkRound_eq_illegalArgument {s : State} (h : s.arg0.toNat < 1 ∨ 10 < s.arg0.toNat) :
    checkRound s = some .illegalArgument := by
  have hround : (decide (1 ≤ argIndex s) && decide (argIndex s ≤ 10)) = false := by
    rw [← Bool.decide_and, decide_eq_false_iff_not, argIndex]
    omega
  exact require_eq_some.mpr ⟨hround, rfl⟩

end Sys2Proof.Machine
end

section
/-! SUPPORT. The multiplier's loop respects XOR in both factors and commutes with its shift step, which is the
multiplication by `x`; what holds of the first eight powers of `x` and is kept by XOR holds of every byte
(40_galois.md R130, R131). -/

namespace Sys2Proof.Machine

theorem shiftReduce_xor (a b : Byte) : shiftReduce (a ^^^ b) = shiftReduce a ^^^ shiftReduce b := by
  have hreduce (x y : Bool) (r : Byte) :
      (if x ^^ y then r else 0x00) = (if x then r else 0x00) ^^^ (if y then r else 0x00) := by
    cases x <;> cases y <;> simp
  simp only [shiftReduce, BitVec.shiftLeft_xor_distrib, BitVec.getElem_xor, hreduce]
  ac_rfl

theorem gmulLoop_shiftReduce (bs : List Bool) (c a : Byte) :
    gmulLoop bs (shiftReduce c) (shiftReduce a) = shiftReduce (gmulLoop bs c a) := by
  induction bs generalizing c a with
  | nil => rfl
  | cons bit bs ih => cases bit <;> simp [gmulLoop, ← shiftReduce_xor, ih]

theorem gmulLoop_xor_left (bs : List Bool) (c d a b : Byte) :
    gmulLoop bs (c ^^^ d) (a ^^^ b) = gmulLoop bs c a ^^^ gmulLoop bs d b := by
  induction bs generalizing c d a b with
  | nil => rfl
  | cons bit bs ih =>
    have hacc : c ^^^ d ^^^ (a ^^^ b) = c ^^^ a ^^^ (d ^^^ b) := by ac_rfl
    cases bit <;> simp [gmulLoop, shiftReduce_xor, hacc, ih]

theorem gmulLoop_xor_right {bs cs : List Bool} (h : bs.length = cs.length) (c d a : Byte) :
    gmulLoop (bs.zipWith xor cs) (c ^^^ d) a = gmulLoop bs c a ^^^ gmulLoop cs d a := by
  induction bs generalizing cs c d a with
  | nil =>
    cases List.length_eq_zero_iff.mp h.symm
    rfl
  | cons x bs ih =>
    obtain _ | ⟨y, cs⟩ := cs
    · simp at h
    have hacc : (if x ^^ y then c ^^^ d ^^^ a else c ^^^ d) =
        (if x then c ^^^ a else c) ^^^ (if y then d ^^^ a else d) := by
      have hcancel : c ^^^ a ^^^ (d ^^^ a) = c ^^^ d ^^^ (a ^^^ a) := by ac_rfl
      cases x <;> cases y <;> simp [hcancel] <;> ac_rfl
    rw [List.zipWith_cons_cons]
    simp only [gmulLoop, hacc, ih (Nat.succ.inj h)]

/-- What the accumulator and the shifted multiplicands have and XOR keeps, the product has. -/
theorem gmulLoop_induction {p : Byte → Prop} (xor : ∀ a b, p a → p b → p (a ^^^ b)) {bs : List Bool}
    {c a : Byte} (hc : p c) (ha : ∀ n < bs.length, p (shiftReduce^[n] a)) : p (gmulLoop bs c a) := by
  induction bs generalizing c a with
  | nil => exact hc
  | cons bit bs ih =>
    refine ih ?_ fun n hn => ha (n + 1) (Nat.succ_lt_succ hn)
    split
    · exact xor _ _ hc (ha 0 (Nat.zero_lt_succ _))
    · exact hc

theorem gmul_one_left (a : Byte) : gmul 0x01 a = a := by
  revert a
  decide

/-- The bytes are spanned by the first eight powers of `x`. -/
theorem byte_induction {p : Byte → Prop} (zero : p 0x00) (power : ∀ n < 8, p (shiftReduce^[n] 0x01))
    (xor : ∀ a b, p a → p b → p (a ^^^ b)) (a : Byte) : p a :=
  gmul_one_left a ▸ gmulLoop_induction xor zero power

end Sys2Proof.Machine
end

section
/-! SUPPORT. The product of two bytes is the field's: the laws of 40_galois.md R133. -/

namespace Sys2Proof.Machine

theorem gmul_zero_right (a : Byte) : gmul a 0x00 = 0x00 := rfl

theorem gmul_one_right (a : Byte) : gmul a 0x01 = a := BitVec.zero_xor

theorem gmul_xor_left (a b c : Byte) : gmul (a ^^^ b) c = gmul a c ^^^ gmul b c :=
  gmulLoop_xor_left (bitsOf c) 0x00 0x00 a b

theorem gmul_xor_right (a b c : Byte) : gmul a (b ^^^ c) = gmul a b ^^^ gmul a c := by
  have hbits : bitsOf (b ^^^ c) = (bitsOf b).zipWith xor (bitsOf c) := by simp [bitsOf]
  have hlen : (bitsOf b).length = (bitsOf c).length := rfl
  rw [gmul, hbits]
  exact gmulLoop_xor_right hlen 0x00 0x00 a

theorem gmul_zero_left (b : Byte) : gmul 0x00 b = 0x00 := by
  simpa using gmul_xor_left 0x00 0x00 b

theorem gmul_shiftReduce_left (n : Nat) (a b : Byte) :
    gmul (shiftReduce^[n] a) b = shiftReduce^[n] (gmul a b) :=
  Function.Semiconj.iterate_right (f := (gmul · b)) (gmulLoop_shiftReduce (bitsOf b) 0x00) n a

/-- The product by `x^n` is `n` shift steps. -/
theorem gmul_power {n : Nat} (hn : n < 8) (a : Byte) :
    gmul a (shiftReduce^[n] 0x01) = shiftReduce^[n] a := by
  interval_cases n <;> exact BitVec.zero_xor

theorem gmul_comm (a b : Byte) : gmul a b = gmul b a := by
  induction b using byte_induction with
  | zero => rw [gmul_zero_right, gmul_zero_left]
  | power n hn => rw [gmul_power hn, gmul_shiftReduce_left, gmul_one_left]
  | xor b c hb hc => rw [gmul_xor_right, gmul_xor_left, hb, hc]

theorem gmul_assoc (a b c : Byte) : gmul (gmul a b) c = gmul a (gmul b c) := by
  induction c using byte_induction with
  | zero => simp only [gmul_zero_right]
  | power n hn =>
    calc gmul (gmul a b) (shiftReduce^[n] 0x01)
      _ = shiftReduce^[n] (gmul b a) := by rw [gmul_power hn, gmul_comm]
      _ = gmul a (shiftReduce^[n] b) := by rw [← gmul_shiftReduce_left, gmul_comm]
      _ = gmul a (gmul b (shiftReduce^[n] 0x01)) := by rw [gmul_power hn]
  | xor c d hc hd => simp only [gmul_xor_right, hc, hd]

/-- The byte that the affine map of the S-box takes to `c` (41_substitution.md R151). -/
def affinePreimage (c : Byte) : Byte := c.rotateLeft 1 ^^^ c.rotateLeft 3 ^^^ c.rotateLeft 6 ^^^ 0x05

theorem affine_affinePreimage (c : Byte) : affine (affinePreimage c) = c := by
  revert c
  decide +kernel

/-- The S-box table is where the model holds the inverses, behind the affine map (41_substitution.md R151); the
kernel multiplies each nonzero byte with its own. -/
theorem gmul_affinePreimage_sbox {a : Byte} : a ≠ 0x00 → gmul a (affinePreimage (sbox a)) = 0x01 := by
  revert a
  decide +kernel

/-- A byte has one inverse at most. -/
theorem gmul_inverse_unique {a b c : Byte} (hb : gmul a b = 0x01) (hc : gmul a c = 0x01) : c = b := by
  calc c
    _ = gmul (gmul a b) c := by rw [hb, gmul_one_left]
    _ = gmul b (gmul a c) := by rw [gmul_comm a, gmul_assoc]
    _ = b := by rw [hc, gmul_one_right]

end Sys2Proof.Machine
end

section
/-! SUPPORT. Repeated doubling and the table of round constants, and the multiplier's two implementations. -/

namespace Sys2Proof.Machine

theorem xtime_eq_shiftReduce (a : Byte) : xtime a = shiftReduce a := BitVec.zero_xor

theorem doublings_xtime (n : Nat) (c : Byte) : doublings n (xtime c) = xtime (doublings n c) := by
  induction n generalizing c with
  | zero => rfl
  | succ n ih => exact ih (xtime c)

theorem rcon_succ {r : Nat} (h : 1 ≤ r) : rcon (r + 1) = xtime (rcon r) := by
  obtain ⟨n, rfl⟩ := Nat.exists_eq_add_of_le' h
  exact doublings_xtime n 0x01

theorem rcon_eq_getElem (r : Fin 10) : rcon (r.val + 1) = rconTable[r.val]'r.isLt := by
  revert r
  decide

/-- The table has an entry for the rounds 1..10 alone, and it is the round constant (40_galois.md R134). -/
theorem rconBy_eq (impl : Config.RconImpl) (r : Nat) :
    rconBy impl r = if 1 ≤ r ∧ r ≤ 10 then some (rcon r) else none := by
  cases impl with
  | doubling => rfl
  | table =>
    cases r with
    | zero => rfl
    | succ n =>
      simp only [rconBy]
      by_cases hn : n < 10
      · simpa [rcon_eq_getElem ⟨n, hn⟩, hn] using List.getElem?_eq_getElem hn
      · simp [rconTable, hn]

/-- The network has stages for seven coefficients alone, and they are those of the coefficient's bits
(40_galois.md R137). -/
theorem networkMul_eq (a : Byte) (n : Nat) :
    networkMul a n = if n ∈ [1, 2, 3, 9, 11, 13, 14] then some (gmul a (BitVec.ofNat 8 n)) else none := by
  simp only [networkMul]
  split
  case h_8 => simp_all -- no coefficient of the network
  all_goals simp [gmul, bitsOf, gmulLoop, BitVec.xor_comm, ← BitVec.xor_assoc]

theorem mulBy_eq_gmul (impl : Config.MulImpl) (a b : Byte) : mulBy impl a b = gmul a b := by
  cases impl with
  | bitSerial => rfl
  | table =>
    rw [mulBy, networkMul_eq]
    split
    · simp
    · rfl

end Sys2Proof.Machine
end

section
/-! The field unit's obligations: the multiplier's laws and implementations, the round constants, and the two
commands. -/

namespace Sys2Proof.Machine

open Sys2Proof.Claims

/-- Settles O35: the bilinear laws from the powers of `x`, the inverses from the S-box table. -/
theorem multiplicationIsAFieldProduct : Obligations.MultiplicationIsAFieldProduct :=
  ⟨gmul_one_right, gmul_zero_right, gmul_zero_left, gmul_comm, gmul_assoc, gmul_xor_right, fun _ ha =>
    ⟨_, gmul_affinePreimage_sbox ha, fun _ => gmul_inverse_unique (gmul_affinePreimage_sbox ha)⟩⟩

/-- Settles O36: one pass of the loop is a shift step; both implementations have the rounds 1..10. -/
theorem doublingMakesTheRoundConstants : Obligations.DoublingMakesTheRoundConstants :=
  ⟨fun a => ⟨rfl, xtime_eq_shiftReduce a⟩, rfl, fun _ => rcon_succ,
    fun r => (rconBy_eq .doubling r).trans (rconBy_eq .table r).symm⟩

/-- Settles O37: on every coefficient both implementations are the one product. -/
theorem multiplierImplementationsAgree : Obligations.MultiplierImplementationsAgree := by
  have hmul (impl : Config.MulImpl) : mulBy impl = gmul := funext₂ (mulBy_eq_gmul impl)
  refine ⟨fun impl a c _ => mulBy_eq_gmul impl a _, fun a c hc => ?_, fun impl s => ?_⟩
  · rw [networkMul_eq, if_pos (List.mem_cons_of_mem 1 hc)]
  · simp only [mixColumnsBy, invMixColumnsBy, hmul]
    exact ⟨rfl, rfl⟩

/-- Settles O23: GF_MUL has no check. -/
theorem gfMulWritesTheProduct : Obligations.GfMulWritesTheProduct :=
  fun _ => exec_of_commandCheck_none rfl rfl

/-- Settles O24: the check passes on the rounds of the table alone. -/
theorem rconWritesTheRoundConstant : Obligations.RconWritesTheRoundConstant := by
  refine fun s => ⟨fun r hr => ?_, fun hr => ?_⟩
  · have hcheck : commandCheck .rcon s = none := checkRound_eq_none.mpr (by omega)
    have hconst : rcon (argIndex s) = rconTable[r.val]'r.isLt :=
      (congrArg rcon hr).trans (rcon_eq_getElem r)
    rw [exec_of_commandCheck_none rfl hcheck, commandEffect, hconst]
    rfl
  · exact exec_of_commandCheck_some (i := .rcon) rfl (checkRound_eq_illegalArgument hr)

end Sys2Proof.Machine
end

section
/-! SUPPORT. The two substitution tables undo each other, and the forward one moves every byte
(41_substitution.md R153). -/

namespace Sys2Proof.Machine

/-- The inverse table undoes the forward table; the kernel looks every byte up. -/
theorem invSbox_sbox : Function.LeftInverse invSbox sbox := by
  unfold Function.LeftInverse
  decide +kernel

/-- A left inverse on finitely many bytes is a right inverse too. -/
theorem sbox_invSbox : Function.RightInverse invSbox sbox :=
  invSbox_sbox.rightInverse_of_surjective (Finite.surjective_of_injective invSbox_sbox.injective)

theorem sbox_ne_self (x : Byte) : sbox x ≠ x := by
  revert x
  decide +kernel

theorem sbox_ne_complement (x : Byte) : sbox x ≠ x ^^^ 0xFF := by
  revert x
  decide +kernel

end Sys2Proof.Machine
end

section
/-! The substitution's obligations: the tables' definition and laws, and the two commands. -/

namespace Sys2Proof.Machine

open Sys2Proof.Claims

/-- Settles O39: the inverse is the entry's preimage under the affine map. -/
theorem sboxIsAffineOfInverse : Obligations.SboxIsAffineOfInverse := by
  refine ⟨by decide, fun x hx => ⟨affinePreimage (sbox x), gmul_affinePreimage_sbox hx, fun _ => ?_, ?_⟩⟩
  · exact gmul_inverse_unique (gmul_affinePreimage_sbox hx)
  · exact (affine_affinePreimage (sbox x)).symm

/-- Settles O25: neither command has a check. -/
theorem sboxCommandsLookUpArg0 : Obligations.SboxCommandsLookUpArg0 :=
  fun _ => ⟨exec_of_commandCheck_none rfl rfl, exec_of_commandCheck_none rfl rfl⟩

/-- Settles O38: one composition and the fixed points by look-up, the other composition by counting. -/
theorem sboxTablesAreInverse : Obligations.SboxTablesAreInverse :=
  fun x => ⟨invSbox_sbox x, sbox_invSbox x, sbox_ne_self x, sbox_ne_complement x⟩

end Sys2Proof.Machine
end

section
/-! SUPPORT. A key word by its bytes, and the four steps of `keyStep` on them (42_key_schedule.md R170, R171). -/

namespace Sys2Proof.Machine

/-- The byte of a word at offset `j` (42_key_schedule.md R170). -/
def KeyWord.byteAt (x : KeyWord) : Fin 4 → Byte
  | 0 => x.b0
  | 1 => x.b1
  | 2 => x.b2
  | 3 => x.b3

@[simp] theorem byteAt_wordAt (s : Block) (w j : Fin 4) : (wordAt s w).byteAt j = s.get (cell j w) := by
  fin_cases j <;> rfl

@[simp] theorem byteAt_xor (x y : KeyWord) (j : Fin 4) : (x.xor y).byteAt j = x.byteAt j ^^^ y.byteAt j := by
  fin_cases j <;> rfl

@[simp] theorem byteAt_rotWord (x : KeyWord) (j : Fin 4) : (rotWord x).byteAt j = x.byteAt (j + 1) := by
  fin_cases j <;> rfl

@[simp] theorem byteAt_subWord (x : KeyWord) (j : Fin 4) : (subWord x).byteAt j = sbox (x.byteAt j) := by
  fin_cases j <;> rfl

@[simp] theorem byteAt_addRcon (x : KeyWord) (r : Nat) (j : Fin 4) :
    (addRcon x r).byteAt j = x.byteAt j ^^^ (if j = 0 then rcon r else 0x00) := by
  cases j using Fin.cases with
  | zero => rfl
  | succ j => fin_cases j <;> exact BitVec.xor_zero.symm

theorem wordAt_keyStep_zero (prev : Block) (r : Nat) :
    wordAt (keyStep prev r) 0 = (wordAt prev 0).xor (addRcon (subWord (rotWord (wordAt prev 3))) r) := rfl

/-- The chain of XORs: each later word from the new word before it (42_key_schedule.md R171, step 4). -/
theorem wordAt_keyStep_succ (prev : Block) (r : Nat) (w : Fin 3) :
    wordAt (keyStep prev r) w.succ = (wordAt prev w.succ).xor (wordAt (keyStep prev r) w.castSucc) := by
  fin_cases w <;> rfl

end Sys2Proof.Machine
end

section
/-! SUPPORT. The schedule and the expander's working copy by their round keys (42_key_schedule.md R172, R174). -/

namespace Sys2Proof.Machine

@[simp] theorem expandKey_get (key : Block) (r : Fin 11) : (expandKey key).get r = roundKey key r := by
  fin_cases r <;> rfl

theorem workingSchedule_succ (key : Block) (u : Nat) :
    workingSchedule key (u + 1) = workingSchedule key u ++ [roundKey key (u + 1)] := by
  simp [workingSchedule, List.range_succ]

theorem workingSchedule_getLast? (key : Block) (u : Nat) :
    (workingSchedule key u).getLast? = some (roundKey key u) := by
  simp [workingSchedule, List.range_succ]

end Sys2Proof.Machine
end

section
/-! The key schedule's obligations: one step, the whole schedule, and the command EXPAND. -/

namespace Sys2Proof.Machine

open Sys2Proof.Claims

/-- Settles O41: entry `r` is round key `r`, and the working copy after `u` micro-steps ends in round key `u`. -/
theorem scheduleIsAFoldOfKeySteps : Obligations.ScheduleIsAFoldOfKeySteps := by
  refine fun key => ⟨expandKey_get key 0, fun r hr => ?_, rfl, fun u => ?_⟩
  · simp only [expandKey_get, roundKey]
  · exact ⟨roundKey key u, workingSchedule_getLast? key u, workingSchedule_succ key u⟩

/-- Settles O40: the words of the step, read byte by byte. -/
theorem keyStepChainsItsWords : Obligations.KeyStepChainsItsWords := by
  refine fun prev r => ⟨fun j => ?_, fun j w hw => ?_⟩
  · simpa [BitVec.xor_assoc] using congrArg (·.byteAt j) (wordAt_keyStep_zero prev r)
  · obtain ⟨w, rfl⟩ := Fin.exists_succ_eq.mpr hw
    have hpred : w.succ - 1 = w.castSucc := by rw [← Fin.coeSucc_eq_succ, add_sub_cancel_right]
    simpa [hpred] using congrArg (·.byteAt j) (wordAt_keyStep_succ prev r w)

/-- Settles O26: the one check is that of the key's length. -/
theorem expandWritesTheSchedule : Obligations.ExpandWritesTheSchedule := by
  refine fun s => ⟨fun hkey => ?_, fun hkey => ?_⟩
  · exact exec_of_commandCheck_none (i := .expand) rfl (checkKey_eq_none.mpr hkey)
  · have hcheck : commandCheck .expand s = some .invalidKeyLength :=
      require_eq_some.mpr ⟨beq_false_of_ne hkey, rfl⟩
    exact exec_of_commandCheck_some rfl hcheck

end Sys2Proof.Machine
end

section
/-! SUPPORT. The block transforms byte by byte: a block is known by its rows and columns too
(43_block_transform.md R190 to R193, R196). -/

namespace Sys2Proof.Machine

theorem block_ext_cell {x y : Block} (h : ∀ r c : Fin 4, x.get (cell r c) = y.get (cell r c)) : x = y :=
  block_ext fun i => cell_rowOf_colOf i ▸ h (rowOf i) (colOf i)

@[simp] theorem subBytes_get (s : Block) (i : Fin 16) : (subBytes s).get i = sbox (s.get i) := tabulate_get _ i

@[simp] theorem invSubBytes_get (s : Block) (i : Fin 16) : (invSubBytes s).get i = invSbox (s.get i) :=
  tabulate_get _ i

@[simp] theorem addRoundKey_get (s k : Block) (i : Fin 16) : (addRoundKey s k).get i = s.get i ^^^ k.get i :=
  tabulate_get _ i

@[simp] theorem shiftRows_get (s : Block) (r c : Fin 4) :
    (shiftRows s).get (cell r c) = s.get (cell r (c + r)) := by
  simp [shiftRows]

@[simp] theorem invShiftRows_get (s : Block) (r c : Fin 4) :
    (invShiftRows s).get (cell r c) = s.get (cell r (c - r)) := by
  simp [invShiftRows]

theorem invSubBytes_subBytes (s : Block) : invSubBytes (subBytes s) = s :=
  block_ext fun i => by simp [invSbox_sbox (s.get i)]

theorem invShiftRows_shiftRows (s : Block) : invShiftRows (shiftRows s) = s :=
  block_ext_cell fun r c => by simp

theorem shiftRows_invShiftRows (s : Block) : shiftRows (invShiftRows s) = s :=
  block_ext_cell fun r c => by simp

theorem addRoundKey_addRoundKey (s k : Block) : addRoundKey (addRoundKey s k) k = s :=
  block_ext fun i => by simp

theorem subBytes_shiftRows (s : Block) : subBytes (shiftRows s) = shiftRows (subBytes s) :=
  block_ext_cell fun r c => by simp

theorem invSubBytes_invShiftRows (s : Block) : invSubBytes (invShiftRows s) = invShiftRows (invSubBytes s) :=
  block_ext_cell fun r c => by simp

theorem shiftRows_four (s : Block) : shiftRows (shiftRows (shiftRows (shiftRows s))) = s := by
  refine block_ext_cell fun r c => ?_
  have hturn : c + r + r + r + r = c := by omega
  simp only [shiftRows_get, hturn]

end Sys2Proof.Machine
end

section
/-! SUPPORT. A column times a matrix, and what two such products after each other are: the product of the
matrices (43_block_transform.md R194, R195). -/

namespace Sys2Proof.Machine

/-- The product of a column `a` of bytes with a matrix row `k` (43_block_transform.md R194). -/
def fieldDot (a k : Fin 4 → Byte) : Byte :=
  gmul (a 0) (k 0) ^^^ gmul (a 1) (k 1) ^^^ gmul (a 2) (k 2) ^^^ gmul (a 3) (k 3)

/-- The entry of row `r`, column `k` of the identity matrix. -/
def unitEntry (r k : Fin 4) : Byte := if k = r then 0x01 else 0x00

theorem mixWith_get (mul : Byte → Byte → Byte) (row0 : Vector Byte 4) (s : Block) (r c : Fin 4) :
    (mixWith mul row0 s).get (cell r c) =
      mixTerm mul row0 s r c 0 ^^^ mixTerm mul row0 s r c 1 ^^^ mixTerm mul row0 s r c 2 ^^^
        mixTerm mul row0 s r c 3 := by
  simp [mixWith]

/-- Leaving a byte unmultiplied is the product by coefficient 1. -/
theorem mixTerm_gmul (row0 : Vector Byte 4) (s : Block) (r c j : Fin 4) :
    mixTerm gmul row0 s r c j = gmul (s.get (cell j c)) (coefficient row0 r j) := by
  simp only [mixTerm]
  split
  · rename_i hone
    rw [hone, gmul_one_right]
  · rfl

theorem mixWith_gmul_get (row0 : Vector Byte 4) (s : Block) (r c : Fin 4) :
    (mixWith gmul row0 s).get (cell r c) = fieldDot (fun j => s.get (cell j c)) (coefficient row0 r) := by
  simp only [mixWith_get, mixTerm_gmul, fieldDot]

/-- A product of products is one product, by the row times the inner matrix. -/
theorem fieldDot_fieldDot (a k : Fin 4 → Byte) (m : Fin 4 → Fin 4 → Byte) :
    fieldDot (fun j => fieldDot a (m j)) k = fieldDot a fun i => fieldDot (fun j => m j i) k := by
  simp only [fieldDot, gmul_xor_left, gmul_xor_right, gmul_assoc]
  ac_rfl

theorem gmul_unitEntry (a : Byte) (r k : Fin 4) : gmul a (unitEntry r k) = if k = r then a else 0x00 := by
  rw [unitEntry, apply_ite (gmul a), gmul_one_right, gmul_zero_right]

theorem fieldDot_unitEntry (a : Fin 4 → Byte) (r : Fin 4) : fieldDot a (unitEntry r) = a r := by
  simp only [fieldDot, gmul_unitEntry]
  fin_cases r <;> simp

/-- A column transform undoes another when the product of their matrices is the identity. -/
theorem mixWith_mixWith_eq_self {outer inner : Vector Byte 4}
    (h : ∀ r i, fieldDot (fun j => coefficient inner j i) (coefficient outer r) = unitEntry r i) (s : Block) :
    mixWith gmul outer (mixWith gmul inner s) = s := by
  refine block_ext_cell fun r c => ?_
  simp only [mixWith_gmul_get, fieldDot_fieldDot, h]
  exact fieldDot_unitEntry _ r

theorem invMixColumns_mixColumns (s : Block) : invMixColumns (mixColumns s) = s :=
  mixWith_mixWith_eq_self (by decide) s

end Sys2Proof.Machine
end

section
/-! SUPPORT. Which check fails, and the round key that a checked argument selects (60_exceptions.md R282 to R286). -/

namespace Sys2Proof.Machine

theorem checkBlock_eq_invalidBlockLength {s : State} (h : s.blkCnt ≠ 16) :
    checkBlock s = some .invalidBlockLength :=
  require_eq_some.mpr ⟨beq_false_of_ne h, rfl⟩

theorem checkSchedule_eq_invalidKeyLength {s : State} (h : s.schedValid = false) :
    checkSchedule s = some .invalidKeyLength :=
  require_eq_some.mpr ⟨h, rfl⟩

theorem checkIndex_eq_illegalArgument {s : State} (h : 10 < s.arg0.toNat) :
    checkIndex s = some .illegalArgument :=
  require_eq_some.mpr ⟨decide_eq_false (Nat.not_le_of_lt h), rfl⟩

theorem selectedRoundKey_eq_get {s : State} {r : Fin 11} (h : s.arg0.toNat = r.val) :
    selectedRoundKey s = some (s.rk.get r) := by
  simp [selectedRoundKey, argIndex, h, Vector.get_eq_getElem]

end Sys2Proof.Machine
end

section
/-! The block transforms' obligations: the transforms byte by byte and by their laws, and the seven commands. -/

namespace Sys2Proof.Machine

open Sys2Proof.Claims

/-- Settles O44: the laws byte by byte, MixColumns by the product of the matrices; the single byte 0x01 as a round
key is mixed with the block and not after it. -/
theorem transformsHaveTheirInverses : Obligations.TransformsHaveTheirInverses := by
  have hmix : mixColumns (addRoundKey zeroBlock (zeroBlock.set 0 0x01)) ≠
      addRoundKey (mixColumns zeroBlock) (zeroBlock.set 0 0x01) := by decide
  exact ⟨invSubBytes_subBytes, invShiftRows_shiftRows, invMixColumns_mixColumns, addRoundKey_addRoundKey,
    subBytes_shiftRows, invSubBytes_invShiftRows, _, _, hmix⟩

/-- Settles O27: the one check is that of the block's length. -/
theorem blockCommandsTransformState : Obligations.BlockCommandsTransformState := by
  intro s hblk
  have hcheck : checkBlock s = none := checkBlock_eq_none.mpr hblk
  refine ⟨?_, ?_, ?_, ?_, ?_, ?_⟩ <;> exact exec_of_commandCheck_none rfl hcheck

/-- Settles O28: each check is reached when those before it pass, and an index up to 10 selects a round key. -/
theorem addRoundKeyChecksThenXors : Obligations.AddRoundKeyChecksThenXors := by
  intro s
  have hcheck : commandCheck .addRoundKey s = (checkBlock s).or ((checkSchedule s).or (checkIndex s)) := rfl
  refine ⟨fun hblk => ?_, fun hblk hsched => ?_, fun hblk hsched harg => ?_, fun r hblk hsched harg => ?_⟩
  · rw [checkBlock_eq_invalidBlockLength hblk] at hcheck
    exact exec_of_commandCheck_some rfl hcheck
  · rw [checkBlock_eq_none.mpr hblk, checkSchedule_eq_invalidKeyLength hsched] at hcheck
    exact exec_of_commandCheck_some rfl hcheck
  · rw [checkBlock_eq_none.mpr hblk, checkSchedule_eq_none.mpr hsched,
      checkIndex_eq_illegalArgument harg] at hcheck
    exact exec_of_commandCheck_some rfl hcheck
  · rw [checkBlock_eq_none.mpr hblk, checkSchedule_eq_none.mpr hsched,
      checkIndex_eq_none.mpr (by omega)] at hcheck
    rw [exec_of_commandCheck_none rfl hcheck, commandEffect, selectedRoundKey_eq_get harg]

/-- Settles O42: the two maps shift a row's columns by `i` back and forth, and four shifts by `i` come round. -/
theorem rowShiftsArePermutations : Obligations.RowShiftsArePermutations :=
  fun s => ⟨shiftRows_get s, invShiftRows_get s, invShiftRows_shiftRows s, shiftRows_invShiftRows s,
    shiftRows_four s⟩

/-- Settles O43: the four terms of each output byte, the columns of the coefficients counted modulo 4. -/
theorem mixColumnsMultipliesByTheMatrix : Obligations.MixColumnsMultipliesByTheMatrix := by
  intro s c
  have hneg2 : (-2 : Fin 4) = 2 := rfl
  have hneg3 : (-3 : Fin 4) = 1 := rfl
  simp [mixColumns, invMixColumns, mixWith_get, mixTerm, coefficient, mixCoefficients, invMixCoefficients,
    hneg2, hneg3]

/-- Settles O60: the three transforms are tabulated byte by byte. -/
theorem substitutionAndKeyAdditionActBytewise : Obligations.SubstitutionAndKeyAdditionActBytewise :=
  fun s k i => ⟨subBytes_get s i, invSubBytes_get s i, addRoundKey_get s k i⟩

end Sys2Proof.Machine
end

section
/-! SUPPORT. The rounds of the two pipelines undo each other, one at a time and in a row
(44_cipher_engine.md R230, R231, R238). -/

namespace Sys2Proof.Machine

theorem subBytes_invSubBytes (s : Block) : subBytes (invSubBytes s) = s :=
  block_ext fun i => by simp [sbox_invSbox (s.get i)]

theorem mixColumns_invMixColumns (s : Block) : mixColumns (invMixColumns s) = s :=
  mixWith_mixWith_eq_self (by decide) s

/-- The keyless first half of an encryption round (44_cipher_engine.md R230). -/
def shiftSubstitute (s : Block) : Block := shiftRows (subBytes s)

/-- The keyless first half of a decryption round (44_cipher_engine.md R231). -/
def invShiftSubstitute (s : Block) : Block := invSubBytes (invShiftRows s)

theorem invShiftSubstitute_shiftSubstitute (s : Block) : invShiftSubstitute (shiftSubstitute s) = s := by
  rw [invShiftSubstitute, shiftSubstitute, invShiftRows_shiftRows, invSubBytes_subBytes]

theorem shiftSubstitute_invShiftSubstitute (s : Block) : shiftSubstitute (invShiftSubstitute s) = s := by
  rw [shiftSubstitute, invShiftSubstitute, subBytes_invSubBytes, shiftRows_invShiftRows]

theorem encryptRound_eq (rk : Schedule) (s : Block) (r : Fin 11) :
    encryptRound rk s r = addRoundKey (mixColumns (shiftSubstitute s)) (rk.get r) := rfl

theorem decryptRound_eq (rk : Schedule) (s : Block) (r : Fin 11) :
    decryptRound rk s r = invMixColumns (addRoundKey (invShiftSubstitute s) (rk.get r)) := rfl

theorem encrypt_eq (p : Block) (rk : Schedule) : encrypt p rk =
    addRoundKey (shiftSubstitute (roundsUp.foldl (encryptRound rk) (addRoundKey p (rk.get 0)))) (rk.get 10) := rfl

theorem decrypt_eq (c : Block) (rk : Schedule) : decrypt c rk =
    addRoundKey (invShiftSubstitute (roundsDown.foldl (decryptRound rk) (addRoundKey c (rk.get 10)))) (rk.get 0) :=
  rfl

/-- The two pipelines cut their rounds at different places: a decryption round starts within an encryption round,
after its keyless first half, and ends there. -/
theorem decryptRound_encryptRound (rk : Schedule) (s : Block) (r : Fin 11) :
    decryptRound rk (shiftSubstitute (encryptRound rk s r)) r = shiftSubstitute s := by
  rw [decryptRound_eq, invShiftSubstitute_shiftSubstitute, encryptRound_eq, addRoundKey_addRoundKey,
    invMixColumns_mixColumns]

theorem encryptRound_decryptRound (rk : Schedule) (s : Block) (r : Fin 11) :
    encryptRound rk (invShiftSubstitute (decryptRound rk s r)) r = invShiftSubstitute s := by
  rw [encryptRound_eq, shiftSubstitute_invShiftSubstitute, decryptRound_eq, mixColumns_invMixColumns,
    addRoundKey_addRoundKey]

/-- If each round is undone behind the cut `h`, the rounds in a row are undone behind it in the reverse order. -/
theorem foldl_reverse_undoes {α β : Type} {f g : α → β → α} {h : α → α} (round : ∀ a b, g (h (f a b)) b = h a)
    (bs : List β) (a : α) : bs.reverse.foldl g (h (bs.foldl f a)) = h a := by
  induction bs generalizing a with
  | nil => rfl
  | cons b bs ih =>
    calc (b :: bs).reverse.foldl g (h ((b :: bs).foldl f a))
      _ = g (bs.reverse.foldl g (h (bs.foldl f (f a b)))) b := by simp
      _ = g (h (f a b)) b := by rw [ih]
      _ = h a := round a b

theorem roundsUp_reverse : roundsUp.reverse = roundsDown := rfl

theorem roundsDown_reverse : roundsDown.reverse = roundsUp := rfl

theorem decrypt_encrypt (b : Block) (rk : Schedule) : decrypt (encrypt b rk) rk = b := by
  rw [decrypt_eq, encrypt_eq, addRoundKey_addRoundKey, ← roundsUp_reverse,
    foldl_reverse_undoes (decryptRound_encryptRound rk), invShiftSubstitute_shiftSubstitute, addRoundKey_addRoundKey]

theorem encrypt_decrypt (b : Block) (rk : Schedule) : encrypt (decrypt b rk) rk = b := by
  rw [encrypt_eq, decrypt_eq, addRoundKey_addRoundKey, ← roundsDown_reverse,
    foldl_reverse_undoes (encryptRound_decryptRound rk), shiftSubstitute_invShiftSubstitute,
    addRoundKey_addRoundKey]

end Sys2Proof.Machine
end

section
/-! SUPPORT. The checks of ENCRYPT and DECRYPT (60_exceptions.md R286) and what the commands answer. -/

namespace Sys2Proof.Machine

theorem checkCipher_eq_none {s : State} : checkCipher s = none ↔ s.blkCnt = 16 ∧ s.schedValid = true := by
  simp [checkCipher]

theorem checkCipher_eq_invalidBlockLength {s : State} (h : s.blkCnt ≠ 16) :
    checkCipher s = some .invalidBlockLength := by
  rw [checkCipher, checkBlock_eq_invalidBlockLength h, Option.some_or]

theorem checkCipher_eq_invalidKeyLength {s : State} (hblk : s.blkCnt = 16) (hsched : s.schedValid = false) :
    checkCipher s = some .invalidKeyLength := by
  rw [checkCipher, checkBlock_eq_none.mpr hblk, checkSchedule_eq_invalidKeyLength hsched, Option.none_or]

theorem exec_encrypt_checked {s : State} (h : checkCipher s = none) :
    exec .encrypt s = .next (Claims.finished 0x00 { s with blk := encrypt s.blk s.rk }) :=
  exec_of_commandCheck_none rfl h

theorem exec_decrypt_checked {s : State} (h : checkCipher s = none) :
    exec .decrypt s = .next (Claims.finished 0x00 { s with blk := decrypt s.blk s.rk }) :=
  exec_of_commandCheck_none rfl h

theorem exec_encrypt_failed {s : State} {e : ErrCode} (h : checkCipher s = some e) :
    exec .encrypt s = .next (Claims.finished e.byte s) :=
  exec_of_commandCheck_some rfl h

theorem exec_decrypt_failed {s : State} {e : ErrCode} (h : checkCipher s = some e) :
    exec .decrypt s = .next (Claims.finished e.byte s) :=
  exec_of_commandCheck_some rfl h

end Sys2Proof.Machine
end

section
/-! SUPPORT. The runs of the micro-sequences, round by round (44_cipher_engine.md R234, R235). -/

namespace Sys2Proof.Machine

/-- A sequence run to its end. -/
theorem workingBlock_length (rk : Schedule) (w : Block) (ops : List MicroOp) :
    workingBlock rk w ops ops.length = ops.foldl (runMicroOp rk) w := by
  rw [workingBlock, List.take_length]

/-- The four micro-operations of an encryption round are the round. -/
theorem foldl_encryptRoundOps (rk : Schedule) (w : Block) (r : Fin 11) :
    (encryptRoundOps r).foldl (runMicroOp rk) w = encryptRound rk w r := rfl

/-- The four micro-operations of a decryption round are the round. -/
theorem foldl_decryptRoundOps (rk : Schedule) (w : Block) (r : Fin 11) :
    (decryptRoundOps r).foldl (runMicroOp rk) w = decryptRound rk w r := rfl

theorem foldl_encryptSequence (rk : Schedule) (w : Block) :
    encryptSequence.foldl (runMicroOp rk) w = encrypt w rk := by
  simp only [encryptSequence, List.append_eq, List.foldl_cons, List.foldl_append, List.foldl_flatMap,
    foldl_encryptRoundOps, List.foldl_nil, runMicroOp, encrypt]

theorem foldl_decryptSequence (rk : Schedule) (w : Block) :
    decryptSequence.foldl (runMicroOp rk) w = decrypt w rk := by
  simp only [decryptSequence, List.append_eq, List.foldl_cons, List.foldl_append, List.foldl_flatMap,
    foldl_decryptRoundOps, List.foldl_nil, runMicroOp, decrypt]

end Sys2Proof.Machine
end

section
/-! The cipher engine's obligations: the round trip, the two commands, and the micro-sequences. -/

namespace Sys2Proof.Machine

open Sys2Proof.Claims

/-- Settles O45: each round undoes the other pipeline's, taken in the reverse order; a command leaves the schedule,
the block's length and so the second command's checks as they were. -/
theorem encryptionRoundTrip : Obligations.EncryptionRoundTrip := by
  refine ⟨fun b rk => ⟨decrypt_encrypt b rk, encrypt_decrypt b rk⟩, fun s hblk hsched => ?_⟩
  have hcheck : checkCipher s = none := checkCipher_eq_none.mpr ⟨hblk, hsched⟩
  exact ⟨⟨_, _, exec_encrypt_checked hcheck, exec_decrypt_checked hcheck, decrypt_encrypt s.blk s.rk⟩,
    ⟨_, _, exec_decrypt_checked hcheck, exec_encrypt_checked hcheck, encrypt_decrypt s.blk s.rk⟩⟩

/-- Settles O29: both commands have the two checks of `checkCipher`, the schedule's reached when the block's
passes. -/
theorem cipherCommandsCheckThenRun : Obligations.CipherCommandsCheckThenRun := by
  refine fun s => ⟨fun hblk => ?_, fun hblk hsched => ?_, fun hblk hsched => ?_⟩
  · have hcheck := checkCipher_eq_invalidBlockLength hblk
    exact ⟨exec_encrypt_failed hcheck, exec_decrypt_failed hcheck⟩
  · have hcheck := checkCipher_eq_invalidKeyLength hblk hsched
    exact ⟨exec_encrypt_failed hcheck, exec_decrypt_failed hcheck⟩
  · have hcheck := checkCipher_eq_none.mpr ⟨hblk, hsched⟩
    exact ⟨exec_encrypt_checked hcheck, exec_decrypt_checked hcheck⟩

/-- Settles O46: the runs round by round; the sequences themselves are two fixed lists of 40. -/
theorem microSequencesRunTheEnvelopes : Obligations.MicroSequencesRunTheEnvelopes := by
  have hruns (rk : Schedule) (w : Block) :
      workingBlock rk w encryptSequence 40 = encrypt w rk ∧
      workingBlock rk w decryptSequence 40 = decrypt w rk :=
    ⟨(workingBlock_length rk w encryptSequence).trans (foldl_encryptSequence rk w),
      (workingBlock_length rk w decryptSequence).trans (foldl_decryptSequence rk w)⟩
  refine ⟨hruns, rfl, rfl, rfl, ?_, rfl, rfl, ?_, rfl⟩
  · unfold opsAt
    decide
  · unfold opsAt
    decide

end Sys2Proof.Machine
end

section
/-! SUPPORT. The turn of the core: the pending command to its completion. -/

namespace Sys2Proof.Machine

theorem step_core {s : State} {ts : List Turn} (h : s.turns = .core :: ts) :
    step s = coreStep { s with turns := ts } := by
  rw [step_eq, nextTurn_cons h, h]
  rfl

theorem coreStep_idle {s : State} (h : s.phase = .idle) : coreStep s = .next s := by
  simp [coreStep, h]

theorem coreStep_busy_ok {s : State} {i : Instr} (h : s.phase = .busy) (hd : decodeCommand s.pendOp = .ok i) :
    coreStep s = exec i s := by
  simp [coreStep, h, hd]

theorem microStep_idle {s : State} (h : s.phase = .idle) : microStep s = s := by
  simp [microStep, microReady, h]

/-- No command writes CTRL (45_host_port.md R269). -/
theorem commandEffect_ie (i : Instr) (s : State) : (commandEffect i s).ie = s.ie := by
  cases i with
  | addRoundKey =>
    simp only [commandEffect]
    cases selectedRoundKey s <;> rfl
  | _ => rfl

/-- While BUSY the core's turn is a completion, with an error or of an effect, and CTRL is kept
(45_host_port.md R272). -/
theorem coreStep_completes {s : State} (h : s.phase = .busy) :
    ∃ code u, coreStep s = .next (complete code u) ∧ u.ie = s.ie := by
  rcases coreStep_cases s with ⟨hidle, -⟩ | ⟨-, i, hd, he⟩ | ⟨-, _, -, he⟩
  · simp [h] at hidle
  · rw [he, exec_eq_runCommand (isCommand_of_decodeCommand hd)]
    rcases runCommand_cases (commandCheck i s) (commandEffect i) s with ⟨e, -, hr⟩ | ⟨-, hr⟩
    · exact ⟨e, s, hr, rfl⟩
    · exact ⟨.ok, commandEffect i s, hr, commandEffect_ie i s⟩
  · exact ⟨.illegalCommand, s, he, rfl⟩

/-- A write while idle leaves the phase at every location but CMD (45_host_port.md R267). -/
theorem idleWrite_phase {l : Location} (h : l ≠ .cmd) (v : Byte) (s : State) :
    (idleWrite l v s).phase = s.phase := by
  cases l with
  | cmd => exact absurd rfl h
  | _ => rfl

end Sys2Proof.Machine
end

section
/-! SUPPORT. A read while BUSY bit by bit, and the write sets address by address (45_host_port.md R260). -/

namespace Sys2Proof.Machine

open Sys2Proof.Claims

/-- While BUSY each bit of a read is drawn where the write set has it, and specified elsewhere
(45_host_port.md R260). -/
theorem memRead_busy_getElem {s : State} (h : s.phase = .busy) (a : Byte) {n : Nat} (hn : n < 8) :
    (memRead a s)[n] =
      if (unspecifiedBits (locate a) s)[n] then (Config.freeByte s.draws)[n] else (busyValue (locate a) s)[n] := by
  simp only [memRead, h]
  split
  · next hzero => simp [hzero]
  · split
    · next hfull =>
      have hones : unspecifiedBits (locate a) s = BitVec.allOnes 8 := hfull
      simp only [hones, BitVec.getElem_allOnes, if_true]
    · cases hbit : (unspecifiedBits (locate a) s)[n] <;> simp [hbit]

/-- A read with no bit unspecified is exact and draws nothing. -/
theorem exec_rd_busy_specified {s : State} (h : s.phase = .busy) {a : Byte}
    (hm : unspecifiedBits (locate a) s = 0x00) :
    exec (.rd a) s = .next { s with rdata := some (busyValue (locate a) s) } := by
  simp [exec_rd, memRead, readDraws, h, hm]

/-- A read with every bit unspecified is the next free byte. -/
theorem exec_rd_busy_unspecified {s : State} (h : s.phase = .busy) {a : Byte}
    (hm : unspecifiedBits (locate a) s = 0xFF) :
    exec (.rd a) s = .next { s with rdata := some (Config.freeByte s.draws), draws := s.draws + 1 } := by
  simp [exec_rd, memRead, readDraws, h, hm]

/-- While BUSY only ERRCODE and STATUS may read otherwise than their values. -/
theorem busyValue_locate {a : Byte} (ha : a ≠ 0x01) (s : State) :
    busyValue (locate a) s = if a = 0x02 then 0x00 else value (locate a) s := by
  split
  · next herr => exact herr ▸ rfl
  · next herr =>
    cases hl : locate a with
    | status => exact absurd (Option.some.inj (addressOf_of_locate hl nofun)).symm ha
    | errcode => exact absurd (Option.some.inj (addressOf_of_locate hl nofun)).symm herr
    | _ => rfl

theorem stateMask_locate (a : Byte) :
    stateMask (locate a) = if 0x10 ≤ a.toNat ∧ a.toNat ≤ 0x1F then 0xFF else 0x00 := by
  revert a
  decide

theorem resultMask_locate (a : Byte) : resultMask (locate a) = if a.toNat = 0x08 then 0xFF else 0x00 := by
  revert a
  decide

theorem writeMask_expand_locate {a : Byte} (ha : a ≠ 0x01) :
    writeMask .expand (locate a) = if 0x30 ≤ a.toNat ∧ a.toNat ≤ 0xDF then 0xFF else 0x00 := by
  revert a
  decide

theorem writeMask_clearKey_locate (a : Byte) : writeMask .clearKey (locate a) =
    if a.toNat = 0x04 ∨ (0x20 ≤ a.toNat ∧ a.toNat ≤ 0x2F) then 0xFF else 0x00 := by
  revert a
  decide

theorem writeMask_clearBlk_locate (a : Byte) : writeMask .clearBlk (locate a) =
    if a.toNat = 0x05 ∨ (0x10 ≤ a.toNat ∧ a.toNat ≤ 0x1F) then 0xFF else 0x00 := by
  revert a
  decide

theorem writeMask_clearAll_locate {a : Byte} (ha : a ≠ 0x01) : writeMask .clearAll (locate a) =
    if (0x04 ≤ a.toNat ∧ a.toNat ≤ 0x08) ∨ (0x10 ≤ a.toNat ∧ a.toNat ≤ 0xDF) then 0xFF else 0x00 := by
  revert a
  decide

/-- The write set of a defined opcode is its row of the table of 45_host_port.md R260, STATUS left out. -/
theorem writeMask_locate {op a : Byte} {i : Instr} (h : decodeCommand op = .ok i) (ha : a ≠ 0x01) :
    writeMask i (locate a) = if wholeByteUnspecified op.toNat a.toNat then 0xFF else 0x00 := by
  have hop : ∀ {b : Byte}, encode i = .command b → op = b := pendOp_eq_of_decodeCommand h
  cases i with
  | rd _ | wr _ _ => exact absurd (isCommand_of_decodeCommand h) Bool.false_ne_true
  | nop => simp [hop rfl, writeMask]
  | expand => simp [hop rfl, wholeByteUnspecified, writeMask_expand_locate ha]
  | encrypt | decrypt | subBytes | invSubBytes | shiftRows | invShiftRows | mixColumns | invMixColumns
  | addRoundKey => simp [hop rfl, wholeByteUnspecified, writeMask, stateMask_locate]
  | gfMul | sbox | invSbox | rcon => simp [hop rfl, wholeByteUnspecified, writeMask, resultMask_locate]
  | clearKey => simp [hop rfl, wholeByteUnspecified, writeMask_clearKey_locate]
  | clearBlk => simp [hop rfl, wholeByteUnspecified, writeMask_clearBlk_locate]
  | clearAll => simp [hop rfl, wholeByteUnspecified, writeMask_clearAll_locate ha]

/-- The table of 45_host_port.md R260 has rows for defined opcodes alone. -/
theorem decodeCommand_of_wholeByteUnspecified {op : Byte} {a : Nat} (h : wholeByteUnspecified op.toNat a) :
    ∃ i, decodeCommand op = .ok i := by
  obtain ⟨-, hdefined, -⟩ := sampleWordsDecodeAndOthersAreReserved
  refine (hdefined op).mpr ?_
  simp only [definedOpcodes, List.mem_cons, ← BitVec.toNat_inj, BitVec.reduceToNat]
  omega

/-- The write set of the command in progress, defined or reserved, STATUS left out (45_host_port.md R260). -/
theorem unspecifiedBits_locate {s : State} (h : s.phase = .busy) {a : Byte} (ha : a ≠ 0x01) :
    unspecifiedBits (locate a) s = if wholeByteUnspecified s.pendOp.toNat a.toNat then 0xFF else 0x00 := by
  simp only [unspecifiedBits, h]
  cases hd : decodeCommand s.pendOp with
  | ok i => exact writeMask_locate hd ha
  | error e =>
    refine (if_neg fun hrow => ?_).symm
    obtain ⟨i, hi⟩ := decodeCommand_of_wholeByteUnspecified hrow
    simp [hd] at hi

/-- The STATUS rows of the write sets: SCHED_VALID of EXPAND, that and COLL of CLEAR_ALL
(45_host_port.md R260). -/
theorem unspecifiedBits_status_eq {s : State} (h : s.phase = .busy) :
    unspecifiedBits .status s = if s.pendOp = 0x01#8 then 0x08 else if s.pendOp = 0xF0#8 then 0x18 else 0x00 := by
  simp only [unspecifiedBits, h]
  cases hd : decodeCommand s.pendOp with
  | ok i =>
    have hop : ∀ {b : Byte}, encode i = .command b → s.pendOp = b := pendOp_eq_of_decodeCommand hd
    cases i with
    | rd _ | wr _ _ => exact absurd (isCommand_of_decodeCommand hd) Bool.false_ne_true
    | _ => simp [hop rfl, writeMask, stateMask, resultMask]
  | error e =>
    have hreserved {op : Byte} {i : Instr} (hi : decodeCommand op = .ok i) : s.pendOp ≠ op := by
      rintro rfl
      simp [hd] at hi
    have hexpand : s.pendOp ≠ 0x01#8 := hreserved (i := .expand) rfl
    have hclear : s.pendOp ≠ 0xF0#8 := hreserved (i := .clearAll) rfl
    simp [hexpand, hclear]

/-- With DONE and ERRCODE clear, as in every reachable BUSY state, the specified part of STATUS is the same whatever
is drawn (45_host_port.md R260; log 9). -/
theorem busyValue_status {s : State} (h : s.phase = .busy) (hdone : s.done = false) (herr : s.errcode = 0x00) :
    busyValue .status s = packStatus s.coll s.schedValid false false true := by
  simp [busyValue, statusByte, busyBit, errBit, h, hdone, herr]

end Sys2Proof.Machine
end

section
/-! SUPPORT. The data ports at a full buffer (45_host_port.md R262, R263). -/

namespace Sys2Proof.Machine

theorem storeAt_full {cnt : Byte} (h : 16 ≤ cnt.toNat) (b : Block) (v : Byte) : storeAt b cnt v = b :=
  dif_neg (Nat.not_lt_of_le h)

/-- A count past 16 does not come back to 16 (40_galois.md R138). -/
theorem bumpCount_ne_sixteen {cnt : Byte} (h : 16 ≤ cnt.toNat) : bumpCount cnt ≠ 16 := by
  intro h16
  have hnat := bumpCount_toNat cnt
  simp only [h16, BitVec.reduceToNat] at hnat
  omega

end Sys2Proof.Machine
end

section
/-! The host port's obligations: reads and writes, while idle and while BUSY, the control commands, and how a command
starts and completes. -/

namespace Sys2Proof.Machine

open Sys2Proof.Claims

/-- Settles O12: at an address in the table's row every bit is unspecified. -/
theorem busyReadsOfTheWriteSetAreDraws : Obligations.BusyReadsOfTheWriteSetAreDraws := by
  intro a s hbusy hrow
  have ha : a ≠ 0x01 := by
    rintro rfl
    simp [wholeByteUnspecified] at hrow
  exact exec_rd_busy_unspecified hbusy ((unspecifiedBits_locate hbusy ha).trans (if_pos hrow))

/-- Settles O13: at an address outside the table's row no bit is unspecified. -/
theorem busyReadsOutsideTheWriteSetAreExact : Obligations.BusyReadsOutsideTheWriteSetAreExact := by
  intro a s hbusy hrow ha
  rw [← busyValue_locate ha]
  exact exec_rd_busy_specified hbusy ((unspecifiedBits_locate hbusy ha).trans (if_neg hrow))

/-- Settles O14: bit by bit, each drawn or specified as the mask of the pending opcode says. -/
theorem busyStatusReadsAllButNamedBits : Obligations.BusyStatusReadsAllButNamedBits := by
  intro s hbusy hdone herr drawn
  have hloc : locate 0x01 = .status := rfl
  have hmask := unspecifiedBits_status_eq hbusy
  have hbits := packStatus_bits s.coll s.schedValid false false true
  have hread (n : Nat) (hn : n < 8) := memRead_busy_getElem hbusy 0x01 hn
  simp only [hloc, busyValue_status hbusy hdone herr] at hread
  refine ⟨memRead 0x01 s, ?_⟩
  rw [exec_rd, readDraws, hloc]
  simp only [hread, hbits]
  split at hmask
  · next hexpand => simp [hmask, hexpand, drawn]
  · next hexpand =>
    split at hmask
    · next hclear => simp [hmask, hclear, drawn]
    · next hclear => simp [hmask, hexpand, hclear]

/-- Settles O20: KEY_IN is `storeAt` and `bumpCount`. -/
theorem keyInAppendsAndCounts : Obligations.KeyInAppendsAndCounts :=
  fun v s hidle => ⟨storeAt s.key s.keyCnt v, exec_wr_idle hidle 0x09 v, storeAt_get s.key s.keyCnt v,
    fun hfull => ⟨storeAt_full hfull s.key v, bumpCount_ne_sixteen hfull⟩⟩

/-- Settles O21: BLK_IN is the same of STATE. -/
theorem blkInAppendsAndCounts : Obligations.BlkInAppendsAndCounts :=
  fun v s hidle => ⟨storeAt s.blk s.blkCnt v, exec_wr_idle hidle 0x0A v, storeAt_get s.blk s.blkCnt v,
    fun hfull => ⟨storeAt_full hfull s.blk v, bumpCount_ne_sixteen hfull⟩⟩

/-- Settles O48: what decodes is no transaction, and the turn is a completion. -/
theorem everyCompletionSetsDoneAndIrq : Obligations.EveryCompletionSetsDoneAndIrq := by
  intro s ts hturns hbusy
  refine ⟨fun a v => ⟨fun hd => ?_, fun hd => ?_⟩, ?_⟩
  · exact Bool.false_ne_true (isCommand_of_decodeCommand hd)
  · exact Bool.false_ne_true (isCommand_of_decodeCommand hd)
  · obtain ⟨code, u, hstep, hie⟩ := coreStep_completes (s := { s with turns := ts }) hbusy
    exact ⟨_, (step_core hturns).trans hstep, rfl, rfl, rfl, hie, hie⟩

/-- Settles O52: of the moves from an idle state only a write may lead to BUSY, and only at CMD. -/
theorem onlyACommandWriteStartsACommand : Obligations.OnlyACommandWriteStartsACommand := by
  intro s t hstep hidle hbusy
  obtain ⟨p, u, hmove, rfl⟩ := move_of_step hstep
  rw [withPort_phase] at hbusy
  cases hmove with
  | @write w rest a v hturn _ hprog hword =>
    by_cases hl : locate a = .cmd
    · obtain rfl : 0x00 = a := Option.some.inj (addressOf_of_locate hl nofun)
      exact ⟨hturn, w, rest, v, hprog, hword, rfl⟩
    · simp [idleWrite_phase hl, hidle] at hbusy
  | stay | micro _ _ | drop _ _ => simp [hidle] at hbusy
  | finish _ _ _ _ | fail _ _ _ _ | reserved _ _ _ | reset _ => cases hbusy

/-- Settles O4. -/
theorem coreTurnRunsTheDecodedCommand : Obligations.CoreTurnRunsTheDecodedCommand :=
  fun _ _ _ hturns hbusy hdec => (step_core hturns).trans (coreStep_busy_ok hbusy hdec)

/-- Settles O7: agent by agent, then with no turns left by the phase. -/
theorem turnsWithoutWorkChangeNothing : Obligations.TurnsWithoutWorkChangeNothing := by
  refine ⟨fun s ts => ⟨fun hturns hidle => ?_, fun hturns hidle => ?_, fun hturns hprog => ?_⟩,
    fun s hturns => ⟨fun hbusy => ?_, fun hidle => ?_⟩⟩
  · exact (step_core hturns).trans (coreStep_idle (s := { s with turns := ts }) hidle)
  · rw [step_eq, nextTurn_cons hturns, hturns]
    exact congrArg Host.Outcome.next (microStep_idle hidle)
  · simp [step_host hturns, hostStep, hprog]
  · have hturn : nextTurn s = .core := by simp [nextTurn, hturns, hbusy]
    rw [step_eq, hturn, hturns]
    rfl
  · have hturn : nextTurn s = .host := by simp [nextTurn, hturns, hidle]
    rw [step_eq, hturn, hturns]
    rfl

/-- Settles O10. -/
theorem readsChangeNoRegister : Obligations.ReadsChangeNoRegister :=
  fun a s => ⟨_, _, exec_rd a s⟩

/-- Settles O15. -/
theorem writesWhileBusyAreDropped : Obligations.WritesWhileBusyAreDropped :=
  fun a v _ hbusy => exec_wr_busy hbusy a v

/-- Settles O16: a write to CMD is an acceptance, whatever the opcode. -/
theorem commandWriteAccepts : Obligations.CommandWriteAccepts :=
  fun v s hidle => ⟨accept v s, exec_wr_idle hidle 0x00 v, rfl, irq_accept v s⟩

/-- Settles O17: `statusWrite` by the two bits it looks at. -/
theorem statusWriteClearsDoneAndColl : Obligations.StatusWriteClearsDoneAndColl := by
  refine fun v s hidle => ⟨statusWrite v s, exec_wr_idle hidle 0x01 v, ?_, fun hv => ?_⟩
  · cases hdone : v[1] <;> cases hcoll : v[4] <;> simp [statusWrite, hdone, hcoll]
  · simp [irq, hv]

/-- Settles O18: CTRL is IE in bit 0. -/
theorem ctrlWriteStoresIe : Obligations.CtrlWriteStoresIe := by
  refine fun v s hidle => ⟨ctrlWrite v s, exec_wr_idle hidle 0x03 v, rfl, ?_, fun hdone hv => ?_⟩
  · rw [ctrlByte_eq]
    split <;> rfl
  · simp [irq, hdone, hv]

/-- Settles O19. -/
theorem argWritesStoreEveryByte : Obligations.ArgWritesStoreEveryByte :=
  fun v _ hidle => ⟨exec_wr_idle hidle 0x06 v, exec_wr_idle hidle 0x07 v⟩

/-- Settles O30: none of the four has a check. -/
theorem controlCommandsComplete : Obligations.ControlCommandsComplete := by
  refine fun s => ⟨?_, ?_, ?_, ?_⟩ <;> exact exec_of_commandCheck_none rfl rfl

end Sys2Proof.Machine
end

section
/-! SUPPORT. Every instruction and both agents answer a next state (60_exceptions.md R280). -/

namespace Sys2Proof.Machine

theorem exec_answers (i : Instr) (s : State) : ∃ t, exec i s = .next t := by
  rcases exec_cases i s with ⟨_, -, -, he⟩ | ⟨-, -, he⟩ | ⟨_, -, he⟩ | ⟨_, _, -, -, he⟩ | ⟨_, _, -, -, he⟩
    <;> exact ⟨_, he⟩

theorem hostStep_answers (s : State) : ∃ t, hostStep s = .next t := by
  rcases hostStep_cases s with ⟨-, he⟩ | ⟨w, rest, -, he⟩ | ⟨_, _, -, -, he⟩
  · exact ⟨_, he⟩
  · exact he ▸ exec_answers (fetchWord w) { s with program := rest }
  · exact ⟨_, he⟩

theorem coreStep_answers (s : State) : ∃ t, coreStep s = .next t := by
  rcases coreStep_cases s with ⟨-, he⟩ | ⟨-, i, -, he⟩ | ⟨-, _, -, he⟩
  · exact ⟨_, he⟩
  · exact he ▸ exec_answers i s
  · exact ⟨_, he⟩

end Sys2Proof.Machine
end

section
/-! SUPPORT. Which opcodes are reserved, which instructions have a check, and the frames of PEND_OP and COLL. -/

namespace Sys2Proof.Machine

open Sys2Proof.Claims

/-- The core's turn on an opcode outside the map raises ILLEGAL_COMMAND (60_exceptions.md R284). -/
theorem coreStep_reserved {s : State} (h : s.phase = .busy) (hop : s.pendOp ∉ definedOpcodes) :
    coreStep s = .next (raise .illegalCommand s) := by
  obtain ⟨-, hdefined, -⟩ := sampleWordsDecodeAndOthersAreReserved
  rcases coreStep_cases s with ⟨hidle, -⟩ | ⟨-, i, hd, -⟩ | ⟨-, _, -, he⟩
  · simp [h] at hidle
  · exact absurd ((hdefined s.pendOp).mp ⟨i, hd⟩) hop
  · exact he

/-- The two transactions have no check to fail. -/
theorem isCommand_of_commandCheck_some {i : Instr} {s : State} {e : ErrCode} (h : commandCheck i s = some e) :
    isCommand i = true := by
  cases i with
  | rd _ | wr _ _ => cases h
  | _ => rfl

theorem isCommand_of_mem_commands {i : Instr} (h : i ∈ commands) : isCommand i = true := by
  have hall : ∀ i ∈ commands, isCommand i = true := by decide
  exact hall i h

/-- No checked command writes PEND_OP, CLEAR_ALL included (45_host_port.md R269; log 8). -/
theorem commandEffect_pendOp {i : Instr} {s : State} (h : commandCheck i s = none) :
    (commandEffect i s).pendOp = s.pendOp := by
  rcases commandEffect_cases h with ⟨r, he⟩ | ⟨-, b, he⟩ | rfl | rfl | rfl | rfl
  · rw [he]
  · rw [he]
  all_goals rfl

/-- The host's side of the port is no command's to write: an effect is the same whatever stands there. -/
theorem commandEffect_port (i : Instr) (s : State) :
    (commandEffect i s).rdata = s.rdata ∧ (commandEffect i s).draws = s.draws ∧
    (commandEffect i s).program = s.program ∧ (commandEffect i s).turns = s.turns := by
  have hport : commandEffect i s = withPort s (commandEffect i s) := commandEffect_withPort i s s
  rw [hport]
  exact ⟨rfl, rfl, rfl, rfl⟩

/-- Of the checked commands only CLEAR_ALL writes COLL (10_state.md R42). -/
theorem commandEffect_coll {i : Instr} {s : State} (h : commandCheck i s = none) (ha : i ≠ .clearAll) :
    (commandEffect i s).coll = s.coll := by
  rcases commandEffect_cases h with ⟨r, he⟩ | ⟨-, b, he⟩ | rfl | rfl | rfl | rfl
  · rw [he]
  · rw [he]
  · rfl
  · exact absurd rfl ha
  · rfl
  · rfl

/-- A write while idle reaches COLL at STATUS alone (45_host_port.md R264). -/
theorem idleWrite_coll {l : Location} (h : l ≠ .status) (v : Byte) (s : State) :
    (idleWrite l v s).coll = s.coll := by
  cases l with
  | status => exact absurd rfl h
  | _ => rfl

end Sys2Proof.Machine
end

section
/-! SUPPORT. Each check in front of the checks after it: what is reported is the first failure
(60_exceptions.md R286). -/

namespace Sys2Proof.Machine

theorem check_or_eq_ite {p : Prop} [Decidable p] {check : Option ErrCode} {e : ErrCode} (pass : p → check = none)
    (fail : ¬ p → check = some e) (next : Option ErrCode) :
    check.or next = if p then next else some e := by
  split
  · next hp => rw [pass hp, Option.none_or]
  · next hp => rw [fail hp, Option.some_or]

theorem check_eq_ite {p : Prop} [Decidable p] {check : Option ErrCode} {e : ErrCode} (pass : p → check = none)
    (fail : ¬ p → check = some e) : check = if p then none else some e :=
  Option.or_none.symm.trans (check_or_eq_ite pass fail none)

theorem checkKey_eq_invalidKeyLength {s : State} (h : s.keyCnt ≠ 16) : checkKey s = some .invalidKeyLength :=
  require_eq_some.mpr ⟨beq_false_of_ne h, rfl⟩

theorem checkBlock_eq (s : State) : checkBlock s = if s.blkCnt = 16 then none else some .invalidBlockLength :=
  check_eq_ite checkBlock_eq_none.mpr checkBlock_eq_invalidBlockLength

theorem checkBlock_or (s : State) (next : Option ErrCode) :
    (checkBlock s).or next = if s.blkCnt = 16 then next else some .invalidBlockLength :=
  check_or_eq_ite checkBlock_eq_none.mpr checkBlock_eq_invalidBlockLength next

theorem checkSchedule_or (s : State) (next : Option ErrCode) :
    (checkSchedule s).or next = if s.schedValid = true then next else some .invalidKeyLength :=
  check_or_eq_ite checkSchedule_eq_none.mpr
    (fun h => checkSchedule_eq_invalidKeyLength (Bool.eq_false_of_not_eq_true h)) next

theorem checkIndex_eq (s : State) :
    checkIndex s = if s.arg0.toNat ≤ 10 then none else some .illegalArgument :=
  check_eq_ite checkIndex_eq_none.mpr fun h => checkIndex_eq_illegalArgument (Nat.lt_of_not_le h)

theorem checkRound_eq (s : State) :
    checkRound s = if 1 ≤ s.arg0.toNat ∧ s.arg0.toNat ≤ 10 then none else some .illegalArgument :=
  check_eq_ite checkRound_eq_none.mpr fun h => checkRound_eq_illegalArgument (by omega)

theorem checkCipher_eq (s : State) : checkCipher s =
    if s.blkCnt = 16 then if s.schedValid = true then none else some .invalidKeyLength
    else some .invalidBlockLength := by
  rw [checkCipher, checkBlock_or, ← checkSchedule_or, Option.or_none]

theorem checkAddRoundKey_eq (s : State) : checkAddRoundKey s =
    if s.blkCnt = 16 then
      if s.schedValid = true then if s.arg0.toNat ≤ 10 then none else some .illegalArgument
      else some .invalidKeyLength
    else some .invalidBlockLength := by
  rw [checkAddRoundKey, checkBlock_or, checkSchedule_or, checkIndex_eq]

end Sys2Proof.Machine
end

section
/-! The exceptions' obligations: every step has an outcome, the checks and their order, what a failed and what a
checked command writes, and the life of COLL. -/

namespace Sys2Proof.Machine

open Sys2Proof.Claims

/-- Settles O9: agent by agent; the micro-step and the reset edge are total functions. -/
theorem everyStepAnswersANextState : Obligations.EveryStepAnswersANextState := by
  intro s
  rw [Safe, step_eq]
  cases nextTurn s with
  | host => exact hostStep_answers _
  | core => exact coreStep_answers _
  | micro => exact ⟨_, rfl⟩
  | rst drives => exact ⟨_, rfl⟩

/-- Settles O33: only a command has a check that can fail. -/
theorem failedCommandsWriteNothingElse : Obligations.FailedCommandsWriteNothingElse :=
  fun _ _ _ hcheck => exec_of_commandCheck_some (isCommand_of_commandCheck_some hcheck) hcheck

/-- Settles O34: the completion is that of the effect, which keeps CTRL, PEND_OP and the host's side of the port. -/
theorem checkedCommandsCompleteWithOk : Obligations.CheckedCommandsCompleteWithOk := by
  intro i s hi hcheck
  exact ⟨_, exec_of_commandCheck_none (isCommand_of_mem_commands hi) hcheck, rfl, rfl, rfl, rfl,
    commandEffect_ie i s, commandEffect_pendOp hcheck, commandEffect_port i s⟩

/-- Settles O53, move by move; among the writes by the location, among the completions by the command. -/
theorem collIsSticky : Obligations.CollIsSticky := by
  intro s t hstep hset hclear
  obtain ⟨p, u, hmove, rfl⟩ := move_of_step hstep
  rw [withPort_coll] at hclear
  cases hmove with
  | stay | drop _ _ | micro _ _ | fail _ _ _ _ | reserved _ _ _ => simp [hset] at hclear
  | @write w rest a v hturn hidle hprog hword =>
    by_cases hl : locate a = .status
    · obtain rfl : 0x01 = a := Option.some.inj (addressOf_of_locate hl nofun)
      change (statusWrite v s).coll = false at hclear
      exact .inl ⟨hturn, hidle, w, rest, v, hprog, hword, by simpa [hset] using hclear⟩
    · simp [idleWrite_coll hl, hset] at hclear
  | @finish i hturn hbusy hdec hcheck =>
    refine .inr (.inl ⟨hturn, hbusy, ?_⟩)
    by_cases ha : i = .clearAll
    · exact pendOp_eq_of_decodeCommand hdec (ha ▸ rfl)
    · simp [commandEffect_coll hcheck ha, hset] at hclear
  | reset hturn => exact .inr (.inr ⟨_, hturn⟩)

/-- Settles O31: to raise ILLEGAL_COMMAND is to complete with its code. -/
theorem reservedOpcodeCompletesIllegal : Obligations.ReservedOpcodeCompletesIllegal :=
  fun s ts hturns hbusy hop =>
    (step_core hturns).trans (coreStep_reserved (s := { s with turns := ts }) hbusy hop)

/-- Settles O32: row by row of the table, each check in front of the next. -/
theorem checksAreInThePrescribedOrder : Obligations.ChecksAreInThePrescribedOrder := by
  intro s block schedule
  refine ⟨?_, ?_, checkAddRoundKey_eq s, ?_, checkRound_eq s, ?_⟩
  · exact check_eq_ite checkKey_eq_none.mpr checkKey_eq_invalidKeyLength
  · have hcheck : ∀ i ∈ [Instr.encrypt, .decrypt], commandCheck i s = checkCipher s := by simp [commandCheck]
    exact fun i hi => (hcheck i hi).trans (checkCipher_eq s)
  · have hcheck : ∀ i ∈ [Instr.subBytes, .invSubBytes, .shiftRows, .invShiftRows, .mixColumns, .invMixColumns],
        commandCheck i s = checkBlock s := by simp [commandCheck]
    exact fun i hi => (hcheck i hi).trans (checkBlock_eq s)
  · simp [commandCheck]

end Sys2Proof.Machine
end

section
/-! SUPPORT. Every step uses up one turn: no operation of an agent touches the list of turns (logs 1, 15). -/

namespace Sys2Proof.Machine

theorem repeatPoll_turns (s : State) : (repeatPoll s).turns = s.turns := by
  rcases repeatPoll_cases s with he | he <;> rw [he]

theorem exec_turns {i : Instr} {s t : State} (h : exec i s = .next t) : t.turns = s.turns := by
  rcases exec_cases i s with ⟨_, -, -, he⟩ | ⟨-, -, he⟩ | ⟨_, -, he⟩ | ⟨_, _, -, -, he⟩ | ⟨a, v, -, -, he⟩
    <;> cases he.symm.trans h
  · rfl
  · obtain ⟨-, -, -, hturns⟩ := commandEffect_port i s
    exact hturns
  · rw [returnByte_turns]
    split <;> rfl
  · rfl
  · obtain ⟨-, -, -, -, -, -, hturns⟩ := idleWrite_frame (locate a) v s
    exact hturns

theorem hostStep_turns {s t : State} (h : hostStep s = .next t) : t.turns = s.turns := by
  rcases hostStep_cases s with ⟨-, he⟩ | ⟨w, rest, -, he⟩ | ⟨rest, u, -, hread, he⟩
  · cases he.symm.trans h
    rfl
  · exact exec_turns (s := { s with program := rest }) (he.symm.trans h)
  · cases he.symm.trans h
    exact (repeatPoll_turns u).trans (exec_turns (s := { s with program := rest }) hread)

theorem coreStep_turns {s t : State} (h : coreStep s = .next t) : t.turns = s.turns := by
  rcases coreStep_cases s with ⟨-, he⟩ | ⟨-, _, -, he⟩ | ⟨-, _, -, he⟩
  · cases he.symm.trans h
    rfl
  · exact exec_turns (he.symm.trans h)
  · cases he.symm.trans h
    rfl

theorem microStep_turns (s : State) : (microStep s).turns = s.turns := by
  rcases microStep_cases s with ⟨-, he⟩ | ⟨-, he⟩ <;> rw [he]

theorem hostInReset_turns (s : State) : (hostInReset s).turns = s.turns := by
  unfold hostInReset
  split
  · rfl
  · split <;> rfl
  · exact repeatPoll_turns _

theorem resetStep_turns (drives : Bool) (s : State) : (resetStep drives s).turns = s.turns := by
  cases drives with
  | false => rfl
  | true => exact hostInReset_turns (resetCore s)

theorem step_turns {s t : State} (h : step s = .next t) : t.turns = s.turns.tail := by
  rw [step_eq] at h
  cases hturn : nextTurn s <;> rw [hturn] at h
  case host => exact hostStep_turns h
  case core => exact coreStep_turns h
  case micro =>
    cases h
    exact microStep_turns _
  case rst drives =>
    cases h
    exact resetStep_turns drives _

end Sys2Proof.Machine
end

section
/-! SUPPORT. A reset edge on the host's side of the port: an idle bus, a write, a read, and the read of `poll`
(70_reset_and_hazards.md R310, R312; logs 4, 15). -/

namespace Sys2Proof.Machine

theorem step_rst {s : State} {drives : Bool} {ts : List Turn} (h : s.turns = .rst drives :: ts) :
    step s = .next (resetStep drives { s with turns := ts }) := by
  rw [step_eq, nextTurn_cons h, h]
  rfl

theorem step_rst_driven {s t : State} {ts : List Turn} (h : s.turns = .rst true :: ts)
    (hhost : hostInReset (resetCore { s with turns := ts }) = t) : step s = .next t :=
  (step_rst h).trans (congrArg Host.Outcome.next hhost)

/-- Bit 16 of a word says which of the two transactions it is (30_encoding.md R100). -/
theorem bit16_of_decodeTransaction_wr {w : BitVec 17} {a v : Byte} (h : decodeTransaction w = .wr a v) :
    w[16] = true := by
  unfold decodeTransaction at h
  split at h
  · assumption
  · cases h

theorem bit16_of_decodeTransaction_rd {w : BitVec 17} {a : Byte} (h : decodeTransaction w = .rd a) :
    w[16] = false := by
  unfold decodeTransaction at h
  split at h
  · cases h
  · exact Bool.eq_false_of_not_eq_true ‹_›

section
variable {s : State} {w : BitVec 17} {rest : List HostItem}

theorem hostInReset_nil (h : s.program = []) : hostInReset s = s := by
  simp [hostInReset, h]

theorem hostInReset_write (h : s.program = .word w :: rest) (hw : w[16] = true) :
    hostInReset s = { s with program := rest } := by
  simp [hostInReset, h, hw]

theorem hostInReset_read (h : s.program = .word w :: rest) (hw : w[16] = false) :
    hostInReset s = { s with
      rdata := some (Config.freeByte s.draws), draws := s.draws + 1, program := rest } := by
  simp [hostInReset, h, hw, returnByte, countDraw]

theorem hostInReset_poll (h : s.program = .poll :: rest) :
    hostInReset s = { s with
      rdata := some (Config.freeByte s.draws), draws := s.draws + 1,
      program := if (Config.freeByte s.draws)[0] = true then .poll :: rest else rest } := by
  simp only [hostInReset, h]
  cases hbit : (Config.freeByte s.draws)[0] with
  | true => exact repeatPoll_of_bit0_true rfl hbit
  | false => exact repeatPoll_of_bit0_false rfl hbit

end

theorem resetStep_phase (drives : Bool) (s : State) : (resetStep drives s).phase = .idle := by
  cases drives with
  | false => rfl
  | true =>
    obtain ⟨p, hp⟩ := hostInReset_withPort s State.reset
    exact congrArg State.phase hp

end Sys2Proof.Machine
end

section
/-! SUPPORT. What a step can do while a command is in progress, and runs of such steps
(45_host_port.md R272; 70_reset_and_hazards.md R316, R318). -/

namespace Sys2Proof.Machine

open Sys2Proof.Claims

/-- While BUSY neither the host nor the sequencer moves a register but COLL, and COLL is not cleared. -/
theorem Move.held {s u : State} (m : Move s u) (hbusy : s.phase = .busy)
    (hturn : nextTurn s = .host ∨ nextTurn s = .micro) :
    sameRegistersButColl s u ∧ (s.coll = true → u.coll = true) := by
  cases m with
  | stay | drop _ _ | micro _ _ => simp [sameRegistersButColl]
  | write _ hidle _ _ => simp [hbusy] at hidle
  | finish h _ _ _ | fail h _ _ _ | reserved h _ _ | reset h => simp [h] at hturn

theorem step_held {s t : State} (hbusy : s.phase = .busy) (hturn : nextTurn s = .host ∨ nextTurn s = .micro)
    (h : step s = .next t) : sameRegistersButColl s t ∧ (s.coll = true → t.coll = true) := by
  obtain ⟨_, _, hmove, rfl⟩ := move_of_step h
  exact hmove.held hbusy hturn

/-- The host's and the sequencer's turns leave the command in progress. -/
theorem step_stays_busy {s : State} (hbusy : s.phase = .busy) (hturn : nextTurn s = .host ∨ nextTurn s = .micro) :
    ∃ t, step s = .next t ∧ t.phase = .busy ∧ t.pendOp = s.pendOp ∧ t.turns = s.turns.tail := by
  obtain ⟨t, hstep⟩ := everyStepAnswersANextState s
  obtain ⟨⟨-, -, -, -, -, -, -, -, -, -, -, -, hphase, hop⟩, -⟩ := step_held hbusy hturn hstep
  exact ⟨t, hstep, hphase.trans hbusy, hop, step_turns hstep⟩

/-- The core's turn completes the command in progress. -/
theorem step_completes {s : State} (hbusy : s.phase = .busy) (hturn : nextTurn s = .core) :
    ∃ t, step s = .next t ∧ t.phase = .idle ∧ t.done = true ∧ t.turns = s.turns.tail := by
  obtain ⟨code, u, hcore, -⟩ := coreStep_completes (s := { s with turns := s.turns.tail }) hbusy
  have hstep : step s = .next (complete code u) := by rw [step_eq, hturn]; exact hcore
  exact ⟨_, hstep, rfl, rfl, step_turns hstep⟩

theorem run_succ {s t : State} (h : step s = .next t) (k : Nat) :
    Host.Core.run core (k + 1) s = Host.Core.run core k t := by
  have hstep : core.step s = .next t := h
  simp only [Host.Core.run, hstep]

theorem run_one {s t : State} (h : step s = .next t) : Host.Core.run core 1 s = .next t := run_succ h 0

/-- Turn by turn: the core completes the command, a reset edge abandons it, any other turn leaves one turn less;
with the turns used up the core is next. -/
theorem run_ends {s : State} {ts : List Turn} (hbusy : s.phase = .busy) (hts : s.turns = ts) :
    ∃ (k : Nat) (t : State), k ≤ ts.length + 1 ∧ Host.Core.run core k s = .next t ∧ t.phase = .idle ∧
      ((∀ b, Turn.rst b ∉ ts) → t.done = true) := by
  induction ts generalizing s with
  | nil =>
    obtain ⟨t, hstep, hidle, hdone, -⟩ := step_completes hbusy (by simp [nextTurn, hts, hbusy])
    exact ⟨1, t, Nat.le_refl _, run_one hstep, hidle, fun _ => hdone⟩
  | cons a ts ih =>
    have hturn : nextTurn s = a := nextTurn_cons hts
    cases a with
    | host | micro =>
      obtain ⟨u, hstep, hbusy', -, hts'⟩ := step_stays_busy hbusy (by simp [hturn])
      obtain ⟨k, t, hk, hrun, hidle, hdone⟩ := ih hbusy' (hts'.trans (by rw [hts]; rfl))
      exact ⟨k + 1, t, Nat.succ_le_succ hk, (run_succ hstep k).trans hrun, hidle,
        fun hno => hdone fun b hb => hno b (List.mem_cons_of_mem _ hb)⟩
    | core =>
      obtain ⟨t, hstep, hidle, hdone, -⟩ := step_completes hbusy hturn
      exact ⟨1, t, Nat.le_add_left _ _, run_one hstep, hidle, fun _ => hdone⟩
    | rst b =>
      exact ⟨1, _, Nat.le_add_left _ _, run_one (step_rst hts), resetStep_phase _ _,
        fun hno => absurd List.mem_cons_self (hno b)⟩

/-- Any number of host turns leaves the command in progress (70_reset_and_hazards.md R318). -/
theorem run_hosts_busy (n : Nat) {s : State} {ts : List Turn} (hbusy : s.phase = .busy)
    (hts : s.turns = List.replicate n .host ++ ts) :
    ∃ t, Host.Core.run core n s = .next t ∧ t.phase = .busy ∧ t.pendOp = s.pendOp ∧ t.turns = ts := by
  induction n generalizing s with
  | zero => exact ⟨s, rfl, hbusy, rfl, hts⟩
  | succ n ih =>
    rw [List.replicate_succ, List.cons_append] at hts
    obtain ⟨u, hstep, hbusy', hop, hts'⟩ := step_stays_busy hbusy (.inl (nextTurn_cons hts))
    obtain ⟨t, hrun, hphase, hop', hturns⟩ := ih hbusy' (hts'.trans (by rw [hts]; rfl))
    exact ⟨t, (run_succ hstep n).trans hrun, hphase, hop'.trans hop, hturns⟩

end Sys2Proof.Machine
end

section
/-! SUPPORT. The cycles of a command that have a host transaction on the bus, and the turns they amount to
(20_memory.md R86; 70_reset_and_hazards.md R318; log 10). -/

namespace Sys2Proof.Machine

open Sys2Proof.Claims

theorem drivenCycles_succ (drives : Nat → Bool) (n : Nat) :
    drivenCycles drives (n + 1) = drivenCycles drives n + if drives (n + 1) then 1 else 0 := by
  simp only [drivenCycles, List.range'_1_concat, List.filter_append, List.length_append, Nat.add_comm 1 n]
  cases h : drives (n + 1) <;> simp [h]

/-- A driven cycle up to `n` is one of the driven cycles of `n` that is not among those before it. -/
theorem drivenCycles_pred_lt {drives : Nat → Bool} {k n : Nat} (hk : 1 ≤ k) (hn : k ≤ n)
    (hdrives : drives k = true) :
    drivenCycles drives (k - 1) < drivenCycles drives n := by
  obtain ⟨k, rfl⟩ := Nat.exists_eq_add_of_le' hk
  have hmono : Monotone (drivenCycles drives) :=
    monotone_nat_of_le_succ fun n => by rw [drivenCycles_succ]; exact Nat.le_add_right _ _
  calc drivenCycles drives k < drivenCycles drives (k + 1) := by simp [drivenCycles_succ, hdrives]
    _ ≤ drivenCycles drives n := hmono hn

theorem cycleTurns_eq (lat : Nat) (drives : Nat → Bool) :
    cycleTurns lat drives = List.replicate (drivenCycles drives lat) .host ++ [.core] := by
  unfold cycleTurns
  congr 1
  induction lat with
  | zero => rfl
  | succ n ih =>
    rw [List.range_succ, List.flatMap_append, ih, drivenCycles_succ, List.replicate_add]
    cases h : drives (n + 1) <;> simp [h]

theorem commandTurns_eq (op : Byte) (drives : Nat → Bool) : commandTurns op drives =
    .host :: List.replicate (drivenCycles drives (Config.lat op)) .host ++ [.core] :=
  congrArg (List.cons Turn.host) (cycleTurns_eq (Config.lat op) drives)

/-- A host's turn with a write of `op` to CMD next is the acceptance of `op` (45_host_port.md R267). -/
theorem step_accepts {s : State} {w : BitVec 17} {rest : List HostItem} {ts : List Turn} {op : Byte}
    (hidle : s.phase = .idle) (hts : s.turns = .host :: ts) (hprog : s.program = .word w :: rest)
    (hword : decodeTransaction w = .wr 0x00 op) :
    step s = .next (accept op { s with turns := ts, program := rest }) := by
  rw [step_host_word hts hprog, hword]
  exact exec_wr_idle (s := { s with turns := ts, program := rest }) hidle 0x00 op

/-- After the acceptance and `n` more host turns the command is in progress, with the turns behind them next. -/
theorem run_accepted {s : State} {w : BitVec 17} {rest : List HostItem} {ts : List Turn} {op : Byte} (n : Nat)
    (hidle : s.phase = .idle) (hts : s.turns = .host :: (List.replicate n .host ++ ts))
    (hprog : s.program = .word w :: rest) (hword : decodeTransaction w = .wr 0x00 op) :
    ∃ t, Host.Core.run core (1 + n) s = .next t ∧ t.phase = .busy ∧ t.pendOp = op ∧ t.turns = ts := by
  rw [Nat.add_comm, run_succ (step_accepts hidle hts hprog hword)]
  exact run_hosts_busy n rfl rfl

end Sys2Proof.Machine
end

section
/-! The obligations of reset and of the hazards: a reset edge, the operands held while BUSY, and the end of every
command. -/

namespace Sys2Proof.Machine

open Sys2Proof.Claims

/-- Settles O49: of the moves while BUSY, `Move.held` has those of the host and of the sequencer. -/
theorem operandsAreHeldWhileBusy : Obligations.OperandsAreHeldWhileBusy :=
  fun _ _ hbusy hturn hstep => step_held hbusy hturn hstep

/-- Settles O54, by induction on the turns left. -/
theorem commandsComeToAnEnd : Obligations.CommandsComeToAnEnd :=
  fun _ hbusy => run_ends hbusy rfl

/-- Settles O55: a driven cycle's host turn stands behind the acceptance and the host turns of the driven cycles
before it, and the core's turn behind them all. -/
theorem cycleTurnsEndInTheCompletion : Obligations.CycleTurnsEndInTheCompletion := by
  intro op drives lat
  refine ⟨Nat.le_add_left 1 _, commandTurns_eq op drives, fun s w rest ts hidle hts hprog hword => ?_⟩
  rw [commandTurns_eq, List.append_assoc, List.cons_append] at hts
  refine ⟨fun k hk hlat hdrives => ?_, ?_⟩
  · obtain ⟨m, hm⟩ := Nat.exists_eq_add_of_lt (drivenCycles_pred_lt hk hlat hdrives)
    rw [hm, Nat.add_assoc, List.replicate_add, List.replicate_succ, List.append_assoc] at hts
    obtain ⟨t, hrun, hbusy, hop, hturns⟩ := run_accepted _ hidle hts hprog hword
    exact ⟨t, hrun, nextTurn_cons hturns, hbusy, hop⟩
  · obtain ⟨t, hrun, hbusy, hop, hturns⟩ := run_accepted _ hidle hts hprog hword
    have hturn : nextTurn t = .core := nextTurn_cons hturns
    obtain ⟨u, hstep, hidle', hdone, hturns'⟩ := step_completes hbusy hturn
    exact ⟨t, u, hrun, hturn, hbusy, hop, hstep, hidle', hdone, hturns'.trans (by rw [hturns]; rfl)⟩

/-- Settles O57: the reset of the spec's state comes first, and the host's side by its next item. -/
theorem resetTurnAbandonsEverything : Obligations.ResetTurnAbandonsEverything := by
  intro s b ts hts leaves drawn
  refine ⟨fun h => ?_, ?_, ?_⟩
  · cases b with
    | false => exact step_rst hts
    | true =>
      have hprog : s.program = [] := by simpa using h
      exact step_rst_driven hts (hostInReset_nil hprog)
  · rintro w rest rfl hprog
    exact ⟨fun _ _ hword => step_rst_driven hts (hostInReset_write hprog (bit16_of_decodeTransaction_wr hword)),
      fun _ hword => step_rst_driven hts (hostInReset_read hprog (bit16_of_decodeTransaction_rd hword))⟩
  · rintro rest rfl hprog
    exact step_rst_driven hts (hostInReset_poll hprog)

end Sys2Proof.Machine
end
